-- ==== Sys2Proof/Word.lean ====
section
/-! DEFINITION. The word types of MBCRC16 (00_scope.md R6). -/

namespace Sys2Proof

/-- A byte, 8 bits, value 0 to 255 (R6). -/
abbrev Byte := BitVec 8

/-- A word, 16 bits, value 0 to 65535 (R6); AC's `u16`. -/
abbrev Word := BitVec 16

/-- A command word: the triple of bus signals written as 25 bits (R60). -/
abbrev CmdWord := BitVec 25

end Sys2Proof
end

