-- ==== Sys2Proof/Config.lean ====
section
/-! DEFINITION. The implementation parameters of 00_scope.md R5, the constraints on them, and the
free value of the model. -/

namespace Sys2Proof

/-- The configurable parameters of R5, each with the default R5 shows.
The three reply lengths are marked 'from general knowledge' there (D10); the model fixes none of the
four: they are a field of the state that no step changes (log entry 2). -/
structure Config where
  /-- `FRAME_MAX`: bytes the frame buffer FB can hold. -/
  frameMax : Nat := 260
  /-- `LEN_WRITE_REPLY`: total length of a good reply to function 0x06. -/
  lenWriteReply : Nat := 8
  /-- `LEN_CALIB_REPLY`: total length of a good reply to function 0x41. -/
  lenCalibReply : Nat := 6
  /-- `LEN_RESET_REPLY`: total length of a good reply to function 0x42. -/
  lenResetReply : Nat := 4
  deriving DecidableEq, Repr

/-- The constraints R5 puts on the configurable parameters; the last one, that `LEN` fits the 16 bits
of `FRM_LEN`, is DEDUCED from R143's `zext_16(LEN)` (log entry 5). -/
abbrev Config.wf (c : Config) : Prop :=
  5 ≤ c.frameMax ∧
  (4 ≤ c.lenWriteReply ∧ c.lenWriteReply ≤ c.frameMax) ∧
  (4 ≤ c.lenCalibReply ∧ c.lenCalibReply ≤ c.frameMax) ∧
  (4 ≤ c.lenResetReply ∧ c.lenResetReply ≤ c.frameMax) ∧
  c.frameMax < 65536

/-- `LEN_W`: the least width with `2^LEN_W > FRAME_MAX` (R5); 9 at the default. -/
def Config.lenW (c : Config) : Nat := c.frameMax.log2 + 1

/-- `LEN_ERROR_REPLY`, fixed at 5 (R5, R72). -/
def lenErrorReply : Nat := 5

/-- `CRC_POLY`, fixed (R5, R91). -/
def crcPoly : Word := 0xA001#16

/-- `CRC_INIT`, fixed (R5, R92). -/
def crcInit : Word := 0xFFFF#16

/-- FREE VALUE (log entry 1): the byte at an FB address that nothing has written. R31: 'A model may give
FB any initial contents (a free parameter of the launch state); it must not assume zero.' -/
opaque Config.unwrittenByte : Nat → Byte

end Sys2Proof
end

