-- ==== Sys2Proof/Syntax.lean ====
section
/-! DEFINITION. The instruction set: one constructor per row of spec/opcode_table.json, 20 host
commands (format CMD25, 30_encoding.md R61) and 7 function-code rows (format FC8, R66, R76). -/

namespace Sys2Proof

/-- One row of the opcode table each. -/
inductive Instr where
  /-- `crc.init`, R100. -/
  | crcInit
  /-- `crc.upd b`, R101. -/
  | crcUpd (b : Byte)
  /-- `crc.rd`, R102. -/
  | crcRd
  /-- `crc.rdlo`, R103. -/
  | crcRdlo
  /-- `crc.rdhi`, R104. -/
  | crcRdhi
  /-- `frm.start`, R113. -/
  | frmStart
  /-- `frm.end`, R115 and R116. -/
  | frmEnd
  /-- `frm.push b`, R114. -/
  | frmPush (b : Byte)
  /-- `frm.req a, f`, R140. -/
  | frmReq (a f : Byte)
  /-- `frm.rdreq`, R141. -/
  | frmRdreq
  /-- `frm.stat`, R142. -/
  | frmStat
  /-- `frm.len`, R143. -/
  | frmLen
  /-- `frm.hdr`, R147. -/
  | frmHdr
  /-- `frm.info`, R148. -/
  | frmInfo
  /-- `frm.exc`, R149. -/
  | frmExc
  /-- `frm.remain`, R144. -/
  | frmRemain
  /-- `frm.rxcrc`, R145. -/
  | frmRxcrc
  /-- `sys.stat`, R152. -/
  | sysStat
  /-- `frm.reg i`, index 0 to 127, R150. -/
  | frmReg (i : BitVec 7)
  /-- `ill`: an access the register map does not define, R153; it carries the three bus fields. -/
  | ill (wr : Bool) (addr : Byte) (data : Word)
  /-- `fc.read_holding`: REQ_FC = 0x03 selects class READ, R111. -/
  | fcReadHolding
  /-- `fc.read_input`: REQ_FC = 0x04 selects class READ, R111. -/
  | fcReadInput
  /-- `fc.write_single`: REQ_FC = 0x06 selects class FIXED, R111. -/
  | fcWriteSingle
  /-- `fc.calibration`: REQ_FC = 0x41 selects class FIXED, R111. -/
  | fcCalibration
  /-- `fc.reset_energy`: REQ_FC = 0x42 selects class FIXED, R111. -/
  | fcResetEnergy
  /-- `fc.other`: any other REQ_FC selects class RAW, R76 and R111. -/
  | fcOther (fc : Byte)
  /-- `fc.error_reply`: a received function code with bit 7 set, `c` the function refused, R117. -/
  | fcErrorReply (c : BitVec 7)
  deriving DecidableEq, Repr

/-- The row's mnemonic in spec/opcode_table.json (R61, R79). -/
def Instr.mnemonic : Instr → String
  | .crcInit => "crc.init"
  | .crcUpd _ => "crc.upd"
  | .crcRd => "crc.rd"
  | .crcRdlo => "crc.rdlo"
  | .crcRdhi => "crc.rdhi"
  | .frmStart => "frm.start"
  | .frmEnd => "frm.end"
  | .frmPush _ => "frm.push"
  | .frmReq _ _ => "frm.req"
  | .frmRdreq => "frm.rdreq"
  | .frmStat => "frm.stat"
  | .frmLen => "frm.len"
  | .frmHdr => "frm.hdr"
  | .frmInfo => "frm.info"
  | .frmExc => "frm.exc"
  | .frmRemain => "frm.remain"
  | .frmRxcrc => "frm.rxcrc"
  | .sysStat => "sys.stat"
  | .frmReg _ => "frm.reg"
  | .ill _ _ _ => "ill"
  | .fcReadHolding => "fc.read_holding"
  | .fcReadInput => "fc.read_input"
  | .fcWriteSingle => "fc.write_single"
  | .fcCalibration => "fc.calibration"
  | .fcResetEnergy => "fc.reset_energy"
  | .fcOther _ => "fc.other"
  | .fcErrorReply _ => "fc.error_reply"

end Sys2Proof
end

