-- ==== Sys2Proof/WellFormed.lean ====
section
/-! DEFINITION. Which terms of `Instr` stand for a word of the encoding. Two rows are 'every word no
other row matches' (`ill`, `fc.other`), so their operands are checked; every value of every other
operand is legal (R62, R64). -/

namespace Sys2Proof

/-- The accesses the register map does not define, R153 (a) to (e). -/
def illegalAccess (wr : Bool) (a : Byte) (d : Word) : Bool :=
  -- (a) write to an R address
  (wr && (decide (0x02#8 ≤ a ∧ a ≤ 0x04#8) || decide (0x13#8 ≤ a ∧ a ≤ 0x19#8) ||
      decide (a = 0x7F#8) || decide (0x80#8 ≤ a))) ||
  -- (b) read of a W address
  (!wr && (decide (a = 0x00#8) || decide (a = 0x01#8) || decide (a = 0x10#8) || decide (a = 0x11#8))) ||
  -- (c) read or write of an unmapped address
  decide (0x05#8 ≤ a ∧ a ≤ 0x0F#8) || decide (0x1A#8 ≤ a ∧ a ≤ 0x7E#8) ||
  -- (d) reserved value of CRC_CMD
  (wr && decide (a = 0x00#8) && decide (d ≠ 0x0001#16)) ||
  -- (e) reserved value of FRM_CMD
  (wr && decide (a = 0x10#8) && decide (d ≠ 0x0001#16) && decide (d ≠ 0x0002#16))

/-- The five function codes of R66. -/
def knownFunction (fc : Byte) : Bool :=
  decide (fc = 0x03#8) || decide (fc = 0x04#8) || decide (fc = 0x06#8) || decide (fc = 0x41#8) ||
    decide (fc = 0x42#8)

/-- A term that some word of the encoding decodes to. -/
def Instr.wf : Instr → Bool
  | .ill wr a d => illegalAccess wr a d
  | .fcOther fc => !knownFunction fc
  | .crcInit | .crcUpd _ | .crcRd | .crcRdlo | .crcRdhi => true
  | .frmStart | .frmEnd | .frmPush _ | .frmReq _ _ | .frmRdreq => true
  | .frmStat | .frmLen | .frmHdr | .frmInfo | .frmExc => true
  | .frmRemain | .frmRxcrc | .sysStat | .frmReg _ => true
  | .fcReadHolding | .fcReadInput | .fcWriteSingle => true
  | .fcCalibration | .fcResetEnergy | .fcErrorReply _ => true

end Sys2Proof
end

