-- ==== Sys2Proof/Decode.lean ====
section
/-! DEFINITION. The decoder, total on every code, and after it the encoder (30_encoding.md R60 to R62,
R65, R66, R75, R76, R81). A code lives in one of three spaces: the command word at the host port, the
request's function code in REQ_FC, and the function-code byte of a received frame. -/

namespace Sys2Proof

/-- Why a code is no instruction. -/
inductive Reject where
  /-- A command word has 25 bits (R60) and this one has more. -/
  | wordTooWide
  /-- A function code is one byte (R65) and this one has more bits. -/
  | functionCodeTooWide
  /-- No row of the table has this many bits. -/
  | noSuchLength
  /-- A received function code without bit 0x80 selects no layout by itself (R76): the class does. -/
  | noErrorFlag
  deriving DecidableEq, Repr

/-- A code and the space it stands in. -/
inductive Code where
  /-- A command word at the host port (R60). -/
  | cmd (w : CmdWord)
  /-- The function code of the request, REQ_FC (R111). -/
  | reqFc (b : Byte)
  /-- The function-code byte `f[1]` of a received frame (R65, R117). -/
  | rxFc (b : Byte)
  deriving DecidableEq, Repr

/-- `W`, bit 24 (R60). -/
def cmdWr (w : CmdWord) : Bool := w.getLsbD 24

/-- `A`, bits 23:16 (R60). -/
def cmdAddr (w : CmdWord) : Byte := w.extractLsb' 16 8

/-- `D`, bits 15:0 (R60). -/
def cmdData (w : CmdWord) : Word := w.extractLsb' 0 16

/-- The command word `{W, A, D}` (R60). -/
def cmdWord (wr : Bool) (a : Byte) (d : Word) : CmdWord :=
  BitVec.ofBool wr ++ a ++ d

/-- The write commands of R61, with the operand assembly of R62; every other write is illegal (R75). -/
def decodeWrite (a : Byte) (d : Word) : Instr :=
  if a = 0x00#8 then (if d = 0x0001#16 then .crcInit else .ill true a d)
  else if a = 0x01#8 then .crcUpd (d.extractLsb' 0 8)
  else if a = 0x10#8 then
    (if d = 0x0001#16 then .frmStart else if d = 0x0002#16 then .frmEnd else .ill true a d)
  else if a = 0x11#8 then .frmPush (d.extractLsb' 0 8)
  else if a = 0x12#8 then .frmReq (d.extractLsb' 8 8) (d.extractLsb' 0 8)
  else .ill true a d

/-- The read commands of R61; `D` is ignored (R60); every other read is illegal (R75). -/
def decodeRead (a : Byte) (d : Word) : Instr :=
  if a = 0x02#8 then .crcRd
  else if a = 0x03#8 then .crcRdlo
  else if a = 0x04#8 then .crcRdhi
  else if a = 0x12#8 then .frmRdreq
  else if a = 0x13#8 then .frmStat
  else if a = 0x14#8 then .frmLen
  else if a = 0x15#8 then .frmHdr
  else if a = 0x16#8 then .frmInfo
  else if a = 0x17#8 then .frmExc
  else if a = 0x18#8 then .frmRemain
  else if a = 0x19#8 then .frmRxcrc
  else if a = 0x7F#8 then .sysStat
  else if a.getLsbD 7 then .frmReg (a.extractLsb' 0 7)
  else .ill false a d

/-- A command word's instruction: total, and independent of any state (R75, R81). -/
def decodeCmd (w : CmdWord) : Instr :=
  if cmdWr w then decodeWrite (cmdAddr w) (cmdData w) else decodeRead (cmdAddr w) (cmdData w)

/-- The row a request's function code selects, compared on all eight bits (R76, R111). -/
def decodeReqFc (b : Byte) : Instr :=
  if b = 0x03#8 then .fcReadHolding
  else if b = 0x04#8 then .fcReadInput
  else if b = 0x06#8 then .fcWriteSingle
  else if b = 0x41#8 then .fcCalibration
  else if b = 0x42#8 then .fcResetEnergy
  else .fcOther b

/-- The row a received function code selects: bit 7 is the error flag, bits 6:0 the function (R65). -/
def decodeRxFc (b : Byte) : Except Reject Instr :=
  if b.getLsbD 7 then .ok (.fcErrorReply (b.extractLsb' 0 7)) else .error .noErrorFlag

/-- The decoder. -/
def decode : Code → Except Reject Instr
  | .cmd w => .ok (decodeCmd w)
  | .reqFc b => .ok (decodeReqFc b)
  | .rxFc b => decodeRxFc b

/-- The code of a number of `nbits` bits: up to one byte a function code, up to four bytes a command
word, whose bits above 24 must be 0. An 8-bit code with bit 7 set is read as a received function code,
as the table's row `fc.error_reply` has it (log entry 6). -/
def codeOfNumber (nbits w : Nat) : Except Reject Code :=
  if nbits = 0 then .error .noSuchLength
  else if nbits ≤ 8 then
    if w < 256 then
      .ok (if (BitVec.ofNat 8 w).getLsbD 7 then .rxFc (BitVec.ofNat 8 w) else .reqFc (BitVec.ofNat 8 w))
    else .error .functionCodeTooWide
  else if nbits ≤ 32 then
    if w < 2 ^ 25 then .ok (.cmd (BitVec.ofNat 25 w)) else .error .wordTooWide
  else .error .noSuchLength

/-- The instruction the decoder reads from a row's bits, numbered as spec/opcode_table.json numbers them. -/
def decodeTableWord (nbits w : Nat) : Option Instr :=
  match codeOfNumber nbits w with
  | .error _ => none
  | .ok c =>
    match decode c with
    | .error _ => none
    | .ok i => some i

/-! The encoder, from the same tables (R61, R66). Ignored bits are encoded as 0 (R79). -/

/-- The code of an instruction. -/
def encode : Instr → Code
  | .crcInit => .cmd (cmdWord true 0x00#8 0x0001#16)
  | .crcUpd b => .cmd (cmdWord true 0x01#8 (0x00#8 ++ b))
  | .crcRd => .cmd (cmdWord false 0x02#8 0#16)
  | .crcRdlo => .cmd (cmdWord false 0x03#8 0#16)
  | .crcRdhi => .cmd (cmdWord false 0x04#8 0#16)
  | .frmStart => .cmd (cmdWord true 0x10#8 0x0001#16)
  | .frmEnd => .cmd (cmdWord true 0x10#8 0x0002#16)
  | .frmPush b => .cmd (cmdWord true 0x11#8 (0x00#8 ++ b))
  | .frmReq a f => .cmd (cmdWord true 0x12#8 (a ++ f))
  | .frmRdreq => .cmd (cmdWord false 0x12#8 0#16)
  | .frmStat => .cmd (cmdWord false 0x13#8 0#16)
  | .frmLen => .cmd (cmdWord false 0x14#8 0#16)
  | .frmHdr => .cmd (cmdWord false 0x15#8 0#16)
  | .frmInfo => .cmd (cmdWord false 0x16#8 0#16)
  | .frmExc => .cmd (cmdWord false 0x17#8 0#16)
  | .frmRemain => .cmd (cmdWord false 0x18#8 0#16)
  | .frmRxcrc => .cmd (cmdWord false 0x19#8 0#16)
  | .sysStat => .cmd (cmdWord false 0x7F#8 0#16)
  | .frmReg i => .cmd (cmdWord false (1#1 ++ i) 0#16)
  | .ill wr a d => .cmd (cmdWord wr a d)
  | .fcReadHolding => .reqFc 0x03#8
  | .fcReadInput => .reqFc 0x04#8
  | .fcWriteSingle => .reqFc 0x06#8
  | .fcCalibration => .reqFc 0x41#8
  | .fcResetEnergy => .reqFc 0x42#8
  | .fcOther fc => .reqFc fc
  | .fcErrorReply c => .rxFc (1#1 ++ c)

end Sys2Proof
end

