-- ==== Sys2Proof/Machine/State.lean ====
section
/-! DEFINITION. The machine's state, its stop reasons, and the state right after reset (10_state.md). -/

namespace Sys2Proof.Machine

/-- Why the machine stops with a fault. The block itself raises nothing (60_exceptions.md R190): both
reasons are accesses to an FB address that does not exist (00_scope.md R7, R28), in states no run
reaches (log entry 7). -/
inductive Fault where
  /-- A read of `FB[addr]` with `addr ≥ FRAME_MAX`. Raised by frm.end, its function-code rows, frm.hdr,
  frm.info, frm.exc, frm.remain and frm.reg when `LEN` or the latched layout reaches past FB. Safe. -/
  | fbReadOutside (addr : Nat)
  /-- A write of `FB[addr]` with `addr ≥ FRAME_MAX`. Raised by frm.push when `LEN > FRAME_MAX`. Safe. -/
  | fbWriteOutside (addr : Nat)
  deriving DecidableEq, Repr

/-- Why an instruction has no meaning. -/
inductive Refusal where
  /-- Raised by an arm of `exec` whose instruction has no meaning yet (no arm does). Safe. -/
  | notModelled (mnemonic : String)
  deriving DecidableEq, Repr

/-- `RESULT`, R17; codes 6 and 7 are never produced and are no constructor (93 X2). -/
inductive Result where
  | none
  | ok
  | truncated
  | lengthMismatch
  | corruptFrame
  | protocolError
  deriving DecidableEq, Repr

/-- `CLS`, R19; code 3 is never produced and is no constructor (93 X2). -/
inductive Cls where
  | raw
  | read
  | fixed
  deriving DecidableEq, Repr

/-- The frame buffer FB (R23): a list of (address, byte) pairs, addresses strictly rising. An unlisted
address holds no value of its own: it reads as the free value `Config.unwrittenByte` (log entry 1). -/
abbrev Memory := List Host.Cell

/-- The input pins of one bus cycle (R33, R60): `sel` requests a transaction. -/
structure BusCycle where
  rst : Bool
  sel : Bool
  wr : Bool
  addr : Byte
  wdata : Word
  deriving DecidableEq, Repr

/-- The state of MBCRC16: the elements of R10 and R31, and the model's own fields `cfg`, `port`,
`ready` and `rdata` (log entries 2 to 4). -/
structure State where
  /-- The parameters of 00_scope.md R5; no step changes them. -/
  cfg : Config
  /-- `CRC`, unit GEN, R11. -/
  crc : Word
  /-- `REQ_ADDR`, R21. -/
  reqAddr : Byte
  /-- `REQ_FC`, R21. -/
  reqFc : Byte
  /-- `FB`, R23. -/
  fb : Memory
  /-- `LEN`, `LEN_W` bits that never wrap, R14 (log entry 5). -/
  len : Nat
  /-- `RXCRC`, R12. -/
  rxcrc : Word
  /-- `DONE`, R15. -/
  done : Bool
  /-- `OVR`, R16. -/
  ovr : Bool
  /-- `STALE`, R16. -/
  stale : Bool
  /-- `RESULT`, R17. -/
  result : Result
  /-- `CRC_OK`, R18. -/
  crcOk : Bool
  /-- `CLS`, R19. -/
  cls : Cls
  /-- `AMATCH`, R20. -/
  amatch : Bool
  /-- `FMATCH`, R20. -/
  fmatch : Bool
  /-- `ILL`, R22. -/
  ill : Bool
  /-- The bus cycles to come, oldest first (R33, R50). -/
  port : List BusCycle
  /-- The output `ready` of the last step (R33): a transaction completed. -/
  ready : Bool
  /-- The output `rdata` of the last step; absent unless the step completed a read (R33, R60). -/
  rdata : Option Word
  deriving DecidableEq, Repr

/-- The machine right after reset: the table of R31 (70_reset_and_hazards.md R210), the default
parameters of R5, and nothing at the port (log entries 1 to 4). -/
def State.reset : State where
  cfg := { frameMax := 260, lenWriteReply := 8, lenCalibReply := 6, lenResetReply := 4 }
  crc := 0xFFFF#16
  reqAddr := 0x00#8
  reqFc := 0x00#8
  fb := []
  len := 0
  rxcrc := 0xFFFF#16
  done := false
  ovr := false
  stale := false
  result := .none
  crcOk := false
  cls := .raw
  amatch := false
  fmatch := false
  ill := false
  port := []
  ready := false
  rdata := none

end Sys2Proof.Machine
end

