-- ==== Sys2Proof/Machine/Operands.lean ====
section
/-! DEFINITION. How bytes and words are taken apart and put together: byte orders, header fields and
register images (20_memory.md R41 to R43, 30_encoding.md R65, R74). -/

namespace Sys2Proof.Machine

/-- `zext_16` of a byte (00_scope.md R7). -/
def zext16 (b : Byte) : Word := b.setWidth 16

/-- `w[7:0]`: of a CRC, the byte sent first (R41, R96). -/
def lowByte (w : Word) : Byte := w.extractLsb' 0 8

/-- `w[15:8]`: of a CRC, the byte sent second (R41, R96). -/
def highByte (w : Word) : Byte := w.extractLsb' 8 8

/-- The two wire bytes of a CRC, low byte first (R41, R96). -/
def wireBytes (c : Word) : List Byte := [lowByte c, highByte c]

/-- `{first, second}`: a big-endian body word, the byte that comes first is the high byte (R42). -/
def beWord (first second : Byte) : Word := first ++ second

/-- The error flag of a function-code byte, bit 7 (R65, R74 (e)). -/
def errorFlag (f1 : Byte) : Bool := f1.getLsbD 7

/-- The function without its error flag, `f & 0x7F` (R65, R74 (e)). -/
def functionOf (f1 : Byte) : Byte := f1 &&& 0x7F#8

/-- A received function-code byte with the error flag set and function `c` (R65). -/
def errorCodeByte (c : BitVec 7) : Byte := 1#1 ++ c

/-- The code of a class in `CLS` (R19). -/
def Cls.code : Cls → BitVec 2
  | .raw => 0#2
  | .read => 1#2
  | .fixed => 2#2

/-- The code of a verdict in `RESULT` (R17). -/
def Result.code : Result → BitVec 3
  | .none => 0#3
  | .ok => 1#3
  | .truncated => 2#3
  | .lengthMismatch => 3#3
  | .corruptFrame => 4#3
  | .protocolError => 5#3

/-- `EXCLASS` of an exception code (R78, R149). -/
def exClass (exc : Byte) : BitVec 3 :=
  if 1 ≤ exc.toNat ∧ exc.toNat ≤ 4 then exc.extractLsb' 0 3 else 7#3

/-- The image of `FRM_INFO`: `{0b0, NREG[6:0], BC[7:0]}` (R148). -/
def infoWord (nreg : Nat) (bc : Byte) : Word := 0#1 ++ BitVec.ofNat 7 nreg ++ bc

/-- The image of `FRM_EXC`: `{0b00000, EXCLASS[2:0], EXC[7:0]}` (R149). -/
def excWord (exc : Byte) : Word := 0#5 ++ exClass exc ++ exc

end Sys2Proof.Machine
end

