-- ==== Sys2Proof/Machine/Crc.lean ====
section
/-! DEFINITION. The functions of unit GEN (40_crc.md R90 to R97), pure and total. -/

namespace Sys2Proof.Machine

/-- One of the eight iterations of R91: the low bit is tested before the shift. -/
def crcShift (r : Word) : Word :=
  if r.getLsbD 0 then (r >>> 1) ^^^ crcPoly else r >>> 1

/-- `n` iterations of R91. -/
def crcShifts : Nat → Word → Word
  | 0, r => r
  | n + 1, r => crcShifts n (crcShift r)

/-- `crc_byte(c, b)`, R91. -/
def crcByte (c : Word) (b : Byte) : Word := crcShifts 8 (c ^^^ zext16 b)

/-- The bytes of a sequence folded in, in order, from a given register value (R92, R93). -/
def crcFold (c : Word) (s : List Byte) : Word := s.foldl crcByte c

/-- `crc16(s)`, R92. -/
def crc16 (s : List Byte) : Word := crcFold crcInit s

/-- `crc_bit(c, d)`, R94: the bit-serial form. -/
def crcBit (c : Word) (d : Bool) : Word :=
  if c.getLsbD 0 ^^ d then (c >>> 1) ^^^ crcPoly else c >>> 1

/-- `validate(f)`, R97: the CRC of every byte except the last two, compared with the last two, low byte
first; frames shorter than 2 bytes are invalid. -/
def validate (f : List Byte) : Bool :=
  if f.length < 2 then false
  else decide (f.drop (f.length - 2) = wireBytes (crc16 (f.take (f.length - 2))))

end Sys2Proof.Machine
end

