-- ==== Sys2Proof/Machine/Verdict.lean ====
section
/-! DEFINITION. The pure functions of unit CHK (41_frame_check.md R111, R112, R117). -/

namespace Sys2Proof.Machine

/-- The reply layout `class_of` answers: a class and, for FIXED, its length (R111). -/
inductive Layout where
  | raw
  | read
  | fixed (length : Nat)
  deriving DecidableEq, Repr

/-- The class of a layout, as latched in `CLS` (R19, R111). -/
def classOfLayout : Layout → Cls
  | .raw => .raw
  | .read => .read
  | .fixed _ => .fixed

/-- `class_of(fc)`, R111, compared on all eight bits. -/
def classOf (c : Config) (fc : Byte) : Layout :=
  if fc = 0x03#8 ∨ fc = 0x04#8 then .read
  else if fc = 0x06#8 then .fixed c.lenWriteReply
  else if fc = 0x41#8 then .fixed c.lenCalibReply
  else if fc = 0x42#8 then .fixed c.lenResetReply
  else .raw

/-- `expect_total(k, L, n, f1, f2)`, R112; the header bytes `f1`, `f2` are there only when `n ≥ 3`. -/
def expectTotal (k : Layout) (n : Nat) (header : Option (Byte × Byte)) : Nat :=
  match k with
  | .raw => n
  | .read =>
    match header with
    | none => 3
    | some (f1, f2) => if errorFlag f1 then lenErrorReply else 5 + f2.toNat
  | .fixed l =>
    match header with
    | none => 3
    | some (f1, _) => if errorFlag f1 then lenErrorReply else l

/-- Steps 3e, 4e and 5e of R117: the error-reply layout. -/
def errorVerdict (n : Nat) (v : Bool) : Result :=
  if n ≠ lenErrorReply then .lengthMismatch
  else if !v then .corruptFrame
  else .protocolError

/-- The length tests 3r and 3f of R117; `f2 = n - 5` is read over the integers (R118). -/
def lengthFits (k : Layout) (n : Nat) (f2 : Byte) : Bool :=
  match k with
  | .raw => true
  | .read => decide ((f2.toNat : Int) = (n : Int) - 5)
  | .fixed l => decide (n = l)

/-- Steps 1 to 5 of R117, for the classes READ and FIXED. -/
def headerVerdict (k : Layout) (f : List Byte) (ovr v : Bool) : Result :=
  match f with
  | _ :: f1 :: f2 :: _ =>
    if ovr then .lengthMismatch
    else if errorFlag f1 then errorVerdict f.length v
    else if !lengthFits k f.length f2 then .lengthMismatch
    else if !v then .corruptFrame
    else .ok
  | _ => .truncated

/-- `decode(k, L, f, n, ovr, v)`, R117, with `n = len(f)`; the first test that fires decides. -/
def verdict (k : Layout) (f : List Byte) (ovr v : Bool) : Result :=
  match k with
  | .raw => if v then .ok else .corruptFrame
  | .read => headerVerdict .read f ovr v
  | .fixed l => headerVerdict (.fixed l) f ovr v

end Sys2Proof.Machine
end

