-- ==== Sys2Proof/Machine/Flags.lean ====
section
/-! DEFINITION. Every flag computation: `RETRY`, the match flags, the gate, and the image of `FRM_STAT`
(10_state.md R18, R20, R25; 42_host_access.md R142, R146; 60_exceptions.md R196). -/

namespace Sys2Proof.Machine

/-- `RETRY`, a pure function of `RESULT` (R196). -/
def retryOf : Result → Bool
  | .truncated | .lengthMismatch | .corruptFrame => true
  | .none | .ok | .protocolError => false

/-- `RESULT` is `OK` or `PROTOCOL_ERROR`: the frame passed its checks (R115, R146). -/
def passed : Result → Bool
  | .ok | .protocolError => true
  | .none | .truncated | .lengthMismatch | .corruptFrame => false

/-- The value latched in `CRC_OK`: `(OVR = 0) and validate(f)` (R18, R115). -/
def crcVerdict (ovr : Bool) (f : List Byte) : Bool := !ovr && validate f

/-- `good` of R115. -/
def goodFrame (k : Layout) (r : Result) : Bool := decide (classOfLayout k ≠ .raw) && passed r

/-- `AMATCH` of R115; `f0` is the address byte where the frame has one. -/
def amatchOf (good : Bool) (f0 : Option Byte) (reqAddr : Byte) : Bool :=
  good && decide (f0 = some reqAddr)

/-- `FMATCH` of R115; `f1` is the function-code byte where the frame has one. -/
def fmatchOf (good : Bool) (f1 : Option Byte) (reqFc : Byte) : Bool :=
  good && decide (f1.map functionOf = some (functionOf reqFc))

/-- The gate `trusted` of R146. -/
def trusted (s : State) : Bool := s.done && decide (s.cls ≠ .raw) && passed s.result

/-- The image of `FRM_STAT` (R25, R142). -/
def statWord (s : State) : Word :=
  0#3 ++ BitVec.ofBool (retryOf s.result) ++ s.cls.code ++ BitVec.ofBool s.fmatch ++
    BitVec.ofBool s.amatch ++ 0#1 ++ BitVec.ofBool s.stale ++ BitVec.ofBool s.ovr ++
    BitVec.ofBool s.crcOk ++ s.result.code ++ BitVec.ofBool s.done

end Sys2Proof.Machine
end

