-- ==== Sys2Proof/Machine/Ops.lean ====
section
/-! DEFINITION. The named operations over the frame buffer, the registers and the port: the only places
where a step reads FB or writes the state. Where a processor would take an exception and return from
one, this block latches a verdict and clears it (60_exceptions.md R190, R197, R198): `State.latch` and
`State.clearFrame` are those two shared operations. -/

namespace Sys2Proof.Machine

/-! ## The frame buffer -/

/-- The canonical form of the frame buffer: addresses strictly rising. An unlisted address holds no
value of its own, so no listed byte can equal it. -/
abbrev Memory.wf (m : Memory) : Prop := m.Pairwise (fun x y => x.1 < y.1)

/-- The byte listed at an address. -/
def Memory.lookup : Memory → Nat → Option Byte
  | [], _ => none
  | (k, v) :: m, a => if k = a then some v else Memory.lookup m a

/-- The byte at an address: the listed one, else the free value of that address (log entry 1). -/
def Memory.byteAt (m : Memory) (a : Nat) : Byte :=
  match Memory.lookup m a with
  | some v => v
  | none => Config.unwrittenByte a

/-- `FB[a] <- b`, keeping the addresses strictly rising. -/
def Memory.write : Memory → Nat → Byte → Memory
  | [], a, b => [(a, b)]
  | (k, v) :: m, a, b =>
    if a < k then (a, b) :: (k, v) :: m
    else if a = k then (a, b) :: m
    else (k, v) :: Memory.write m a b

/-- `FB[a]` as the state holds it; every statement about a byte of memory reads it so. -/
def State.fbByte (s : State) (a : Nat) : Byte := Memory.byteAt s.fb a

/-- `MemRead(a, 1)`, defined for `0 ≤ a < FRAME_MAX` (00_scope.md R7). -/
def memRead (s : State) (a : Nat) : Except Fault Byte :=
  if a < s.cfg.frameMax then .ok (s.fbByte a) else .error (.fbReadOutside a)

/-- `MemRead(a, 2) = {FB[a], FB[a+1]}`, big-endian (20_memory.md R42). -/
def memRead2 (s : State) (a : Nat) : Except Fault Word :=
  match memRead s a with
  | .error e => .error e
  | .ok hi =>
    match memRead s (a + 1) with
    | .error e => .error e
    | .ok lo => .ok (beWord hi lo)

/-- The stored bytes `FB[0 .. LEN-1]`, in order (R63, R115). -/
def State.frame (s : State) : List Byte := (List.range s.len).map s.fbByte

/-- The reads of `FB[0 .. LEN-1]`; the first address outside FB is `FRAME_MAX`. -/
def readFrame (s : State) : Except Fault (List Byte) :=
  if s.len ≤ s.cfg.frameMax then .ok s.frame else .error (.fbReadOutside s.cfg.frameMax)

/-- The header bytes `FB[1]`, `FB[2]`, read only when `LEN ≥ 3` (R112, R144). -/
def readHeader (s : State) : Except Fault (Option (Byte × Byte)) :=
  if s.len < 3 then .ok none
  else
    match memRead s 1 with
    | .error e => .error e
    | .ok f1 =>
      match memRead s 2 with
      | .error e => .error e
      | .ok f2 => .ok (some (f1, f2))

/-! ## Completing a command at the port (10_state.md R33, 30_encoding.md R60) -/

/-- A write completes: `ready`, and no read value. -/
def State.ack (s : State) : State := { s with ready := true, rdata := none }

/-- A read completes with the value `v`. -/
def State.answer (s : State) (v : Word) : State := { s with ready := true, rdata := some v }

/-- A read whose value is computed from FB. -/
def answerRead (s : State) (r : Except Fault Word) : Host.Outcome State Fault Refusal :=
  match r with
  | .ok v => .next (s.answer v)
  | .error e => .fault e

/-- No transaction in this cycle: the block holds its state and does nothing (R205). -/
def State.idle (s : State) : State := { s with ready := false, rdata := none }

/-- `rst` is 1: every element takes its value of R31, FB is not written, `ready` stays 0, and a command
offered in the same cycle is abandoned (R210). -/
def State.applyReset (s : State) : State :=
  { State.reset with cfg := s.cfg, fb := s.fb, port := s.port }

/-! ## Register updates -/

/-- `CRC <- c`. -/
def State.setCrc (s : State) (c : Word) : State := { s with crc := c }

/-- `REQ_ADDR <- a; REQ_FC <- f` (R140). -/
def State.setReq (s : State) (a f : Byte) : State := { s with reqAddr := a, reqFc := f }

/-- `ILL <- 1` (R153). -/
def State.setIll (s : State) : State := { s with ill := true }

/-- `OVR <- 1` (R114). -/
def State.setOvr (s : State) : State := { s with ovr := true }

/-- `STALE <- 1` (R114). -/
def State.setStale (s : State) : State := { s with stale := true }

/-- The store of an accepted push: `FB[LEN] <- b`, `RXCRC <- crc_byte(RXCRC, b)`, `LEN <- LEN + 1`, all
from the values at the start (R7, R114). -/
def State.store (s : State) (b : Byte) : State :=
  { s with fb := Memory.write s.fb s.len b, rxcrc := crcByte s.rxcrc b, len := s.len + 1 }

/-- The FB address a push stores to: none where the byte is dropped (R114). -/
def pushTarget (s : State) : Option Nat :=
  if s.done then none else if s.len = s.cfg.frameMax then none else some s.len

/-- Return, R198: `frm.start` clears the latched fields, the flags and the frame (R113). -/
def State.clearFrame (s : State) : State :=
  { s with
    len := 0, rxcrc := crcInit, done := false, ovr := false, stale := false,
    result := .none, crcOk := false, cls := .raw, amatch := false, fmatch := false }

/-- Entry, R197: `frm.end` latches the verdict `r` and the CRC verdict `v` of a frame whose first bytes
are `f0` and `f1`, judged by layout `k` for the request function code `fc` (R115). -/
def State.latch (s : State) (k : Layout) (fc : Byte) (f0 f1 : Option Byte) (r : Result) (v : Bool) : State :=
  { s with
    result := r, crcOk := v, cls := classOfLayout k,
    amatch := amatchOf (goodFrame k r) f0 s.reqAddr,
    fmatch := fmatchOf (goodFrame k r) f1 fc,
    done := true }

/-! ## Closing a frame -/

/-- `frm.end` by the layout `k` of function code `fc` (R115); with `DONE = 1` it has no effect (R116). -/
def closeFrame (k : Layout) (fc : Byte) (s : State) : Host.Outcome State Fault Refusal :=
  if s.done then .next s.ack
  else
    match readFrame s with
    | .error e => .fault e
    | .ok f =>
      .next (s.latch k fc f[0]? f[1]? (verdict k f s.ovr (crcVerdict s.ovr f)) (crcVerdict s.ovr f)).ack

/-- The verdict of a frame whose received function code is an error code: classes READ and FIXED go by
steps 1, 2 and 3e to 5e of R117; class RAW looks at no header (step 0). -/
def errorReplyVerdict (k : Layout) (n : Nat) (ovr v : Bool) : Result :=
  match k with
  | .raw => if v then .ok else .corruptFrame
  | .read | .fixed _ =>
    if n < 3 then .truncated else if ovr then .lengthMismatch else errorVerdict n v

/-- `frm.end` where the received byte `f[1]` is the error code `0x80 | c` (R65, R117). -/
def closeErrorReply (k : Layout) (c : BitVec 7) (s : State) : Host.Outcome State Fault Refusal :=
  if s.done then .next s.ack
  else
    match readFrame s with
    | .error e => .fault e
    | .ok f =>
      .next (s.latch k s.reqFc f[0]? (some (errorCodeByte c))
        (errorReplyVerdict k f.length s.ovr (crcVerdict s.ovr f)) (crcVerdict s.ovr f)).ack

/-! ## The fields of a reply (42_host_access.md R148 to R150) -/

/-- `NREG` and `BC` of R148. -/
def infoFields (s : State) : Except Fault (Nat × Byte) :=
  if trusted s && decide (s.result = .ok) && decide (s.cls = .read) then
    match memRead s 2 with
    | .error e => .error e
    | .ok f2 => .ok (f2.toNat / 2, f2)
  else if trusted s && decide (s.result = .ok) && decide (s.cls = .fixed) then
    .ok ((s.len - 4) / 2, 0#8)
  else .ok (0, 0#8)

/-- The FB address of the first body word: 3 for class READ, 2 for class FIXED (R150). -/
def bodyBase (c : Cls) : Nat := if c = .read then 3 else 2

/-! ## The port -/

/-- The command word of a bus cycle (R60). -/
def BusCycle.word (c : BusCycle) : CmdWord := cmdWord c.wr c.addr c.wdata

/-- The bus cycle that presents a command word (R33, R60). -/
def BusCycle.ofWord (w : CmdWord) : BusCycle :=
  { rst := false, sel := true, wr := cmdWr w, addr := cmdAddr w, wdata := cmdData w }

/-- A command word as the next one at the port (log entry 3). -/
def placeCmd (s : State) (w : CmdWord) : State := { s with port := BusCycle.ofWord w :: s.port }

/-- The command word of `frm.end` (R61). -/
def frmEndWord : CmdWord := cmdWord true 0x10#8 0x0002#16

/-- The function code `b` where CHK dispatches on it next: in `REQ_FC` of an open frame, with `frm.end`
next at the port; a closed frame is first cleared (log entry 6). -/
def placeReqFc (s : State) (b : Byte) : State :=
  let t := if s.done then s.clearFrame else s
  placeCmd (t.setReq t.reqAddr b) frmEndWord

/-- A request function code whose class interprets headers: the one held, or 0x03 where it is RAW. -/
def headerFc (s : State) : Byte := if classOf s.cfg s.reqFc = .raw then 0x03#8 else s.reqFc

/-- Bytes stored one after the other from the cleared frame on (R114). -/
def storeAll (s : State) : List Byte → State
  | [] => s
  | b :: bs => storeAll (s.store b) bs

/-- The received function code `b` where CHK dispatches on it next: at `FB[1]` of a complete error reply
(exception code 1, good CRC) in an open frame of a class that reads headers, with `frm.end` next at the
port (log entry 6). -/
def placeRxFc (s : State) (b : Byte) : State :=
  let body := [s.reqAddr, b, 0x01#8]
  let t := storeAll s.clearFrame (body ++ wireBytes (crc16 body))
  placeCmd (t.setReq s.reqAddr (headerFc s)) frmEndWord

end Sys2Proof.Machine
end

