-- ==== Sys2Proof/Machine/Access.lean ====
section
/-! DEFINITION. Host register access: configuration, status, data read-out and the illegal command
(42_host_access.md R140 to R153). -/

namespace Sys2Proof.Machine

/-- `frm.req a, f`, R140. -/
def execFrmReq (a f : Byte) (s : State) : Host.Outcome State Fault Refusal := .next (s.setReq a f).ack

/-- `frm.rdreq`, R141: `rdata <- {REQ_ADDR, REQ_FC}`. -/
def execFrmRdreq (s : State) : Host.Outcome State Fault Refusal :=
  .next (s.answer (beWord s.reqAddr s.reqFc))

/-- `frm.stat`, R142. -/
def execFrmStat (s : State) : Host.Outcome State Fault Refusal := .next (s.answer (statWord s))

/-- `frm.len`, R143: `rdata <- zext_16(LEN)`. -/
def execFrmLen (s : State) : Host.Outcome State Fault Refusal := .next (s.answer (BitVec.ofNat 16 s.len))

/-- `frm.remain`, R144: from the live `REQ_FC`; not gated. -/
def execFrmRemain (s : State) : Host.Outcome State Fault Refusal :=
  answerRead s ((readHeader s).map fun h =>
    BitVec.ofNat 16 (expectTotal (classOf s.cfg s.reqFc) s.len h - s.len))

/-- `frm.rxcrc`, R145: `rdata <- RXCRC`; not gated. -/
def execFrmRxcrc (s : State) : Host.Outcome State Fault Refusal := .next (s.answer s.rxcrc)

/-- `frm.hdr`, R147: `{FB[0], FB[1]}` if trusted. -/
def execFrmHdr (s : State) : Host.Outcome State Fault Refusal :=
  if trusted s then answerRead s (memRead2 s 0) else .next (s.answer 0#16)

/-- `frm.info`, R148. -/
def execFrmInfo (s : State) : Host.Outcome State Fault Refusal :=
  answerRead s ((infoFields s).map fun p => infoWord p.1 p.2)

/-- `frm.exc`, R149. -/
def execFrmExc (s : State) : Host.Outcome State Fault Refusal :=
  if trusted s && decide (s.result = .protocolError) then answerRead s ((memRead s 2).map excWord)
  else .next (s.answer 0#16)

/-- `frm.reg i`, R150: body word `i`, big-endian, for `i < NREG`. -/
def execFrmReg (i : BitVec 7) (s : State) : Host.Outcome State Fault Refusal :=
  match infoFields s with
  | .error e => .fault e
  | .ok p =>
    if trusted s && decide (s.result = .ok) && decide (i.toNat < p.1) then
      answerRead s (memRead2 s (bodyBase s.cls + 2 * i.toNat))
    else .next (s.answer 0#16)

/-- `sys.stat`, R152: `rdata <- zext_16(ILL)`. -/
def execSysStat (s : State) : Host.Outcome State Fault Refusal :=
  .next (s.answer ((BitVec.ofBool s.ill).setWidth 16))

/-- `ill`, R153: `ILL <- 1`, no other effect; a read returns 0x0000. The address and the data of the
access have no effect. -/
def execIll (wr : Bool) (s : State) : Host.Outcome State Fault Refusal :=
  .next (if wr then s.setIll.ack else s.setIll.answer 0#16)

end Sys2Proof.Machine
end

