-- ==== Sys2Proof/Machine/Chk.lean ====
section
/-! DEFINITION. The commands of unit CHK that move a frame through its life (41_frame_check.md R110,
R113 to R116). -/

namespace Sys2Proof.Machine

/-- `frm.start`, R113: the flush, legal in every state. -/
def execFrmStart (s : State) : Host.Outcome State Fault Refusal := .next s.clearFrame.ack

/-- `frm.push b`, R114: `DONE = 1` is tested before `LEN = FRAME_MAX` (R195). -/
def execFrmPush (b : Byte) (s : State) : Host.Outcome State Fault Refusal :=
  match pushTarget s with
  | none => .next (if s.done then s.setStale else s.setOvr).ack
  | some a => if a < s.cfg.frameMax then .next (s.store b).ack else .fault (.fbWriteOutside a)

/-- `frm.end`, R115 and R116: the class is that of the live `REQ_FC`. -/
def execFrmEnd (s : State) : Host.Outcome State Fault Refusal :=
  closeFrame (classOf s.cfg s.reqFc) s.reqFc s

end Sys2Proof.Machine
end

