-- ==== Sys2Proof/Machine/FuncCode.lean ====
section
/-! DEFINITION. The function-code rows of the opcode table (41_frame_check.md R111, R117): what CHK does
when `frm.end` dispatches on that code. The command `frm.end` at `DONE = 0` is the row that `REQ_FC`
selects and, where the frame carries an error code under a class that reads headers, the row
`fc.error_reply` (log entry 6). -/

namespace Sys2Proof.Machine

/-- `fc.read_holding`: `REQ_FC = 0x03` selects class READ. -/
def execFcReadHolding (s : State) : Host.Outcome State Fault Refusal := closeFrame .read 0x03#8 s

/-- `fc.read_input`: `REQ_FC = 0x04` selects class READ. -/
def execFcReadInput (s : State) : Host.Outcome State Fault Refusal := closeFrame .read 0x04#8 s

/-- `fc.write_single`: `REQ_FC = 0x06` selects class FIXED, length `LEN_WRITE_REPLY`. -/
def execFcWriteSingle (s : State) : Host.Outcome State Fault Refusal :=
  closeFrame (.fixed s.cfg.lenWriteReply) 0x06#8 s

/-- `fc.calibration`: `REQ_FC = 0x41` selects class FIXED, length `LEN_CALIB_REPLY`. -/
def execFcCalibration (s : State) : Host.Outcome State Fault Refusal :=
  closeFrame (.fixed s.cfg.lenCalibReply) 0x41#8 s

/-- `fc.reset_energy`: `REQ_FC = 0x42` selects class FIXED, length `LEN_RESET_REPLY`. -/
def execFcResetEnergy (s : State) : Host.Outcome State Fault Refusal :=
  closeFrame (.fixed s.cfg.lenResetReply) 0x42#8 s

/-- `fc.other`: any other `REQ_FC` selects class RAW, CRC check only (R76). -/
def execFcOther (fc : Byte) (s : State) : Host.Outcome State Fault Refusal := closeFrame .raw fc s

/-- `fc.error_reply`: the received code `0x80 | c` selects the 5-byte error-reply layout in the classes
READ and FIXED (R72, R117); in class RAW no header is looked at. -/
def execFcErrorReply (c : BitVec 7) (s : State) : Host.Outcome State Fault Refusal :=
  closeErrorReply (classOf s.cfg s.reqFc) c s

end Sys2Proof.Machine
end

