-- ==== Sys2Proof/Machine/Gen.lean ====
section
/-! DEFINITION. The commands of unit GEN (40_crc.md R100 to R104). -/

namespace Sys2Proof.Machine

/-- `crc.init`, R100: `CRC <- 0xFFFF`. -/
def execCrcInit (s : State) : Host.Outcome State Fault Refusal := .next (s.setCrc crcInit).ack

/-- `crc.upd b`, R101: `CRC <- crc_byte(CRC, b)`. -/
def execCrcUpd (b : Byte) (s : State) : Host.Outcome State Fault Refusal :=
  .next (s.setCrc (crcByte s.crc b)).ack

/-- `crc.rd`, R102: `rdata <- CRC`. -/
def execCrcRd (s : State) : Host.Outcome State Fault Refusal := .next (s.answer s.crc)

/-- `crc.rdlo`, R103: `rdata <- zext_16(CRC[7:0])`. -/
def execCrcRdlo (s : State) : Host.Outcome State Fault Refusal := .next (s.answer (zext16 (lowByte s.crc)))

/-- `crc.rdhi`, R104: `rdata <- zext_16(CRC[15:8])`. -/
def execCrcRdhi (s : State) : Host.Outcome State Fault Refusal := .next (s.answer (zext16 (highByte s.crc)))

end Sys2Proof.Machine
end

