-- ==== Sys2Proof/Machine/Dispatch.lean ====
section
/-! DEFINITION. One arm per constructor of `Instr`. -/

namespace Sys2Proof.Machine

def exec (i : Instr) (s : State) : Host.Outcome State Fault Refusal :=
  match i with
  -- unit GEN, 40_crc.md
  | .crcInit => Sys2Proof.Machine.execCrcInit s
  | .crcUpd b => Sys2Proof.Machine.execCrcUpd b s
  | .crcRd => Sys2Proof.Machine.execCrcRd s
  | .crcRdlo => Sys2Proof.Machine.execCrcRdlo s
  | .crcRdhi => Sys2Proof.Machine.execCrcRdhi s
  -- unit CHK, 41_frame_check.md
  | .frmStart => Sys2Proof.Machine.execFrmStart s
  | .frmEnd => Sys2Proof.Machine.execFrmEnd s
  | .frmPush b => Sys2Proof.Machine.execFrmPush b s
  -- host access, 42_host_access.md
  | .frmReq a f => Sys2Proof.Machine.execFrmReq a f s
  | .frmRdreq => Sys2Proof.Machine.execFrmRdreq s
  | .frmStat => Sys2Proof.Machine.execFrmStat s
  | .frmLen => Sys2Proof.Machine.execFrmLen s
  | .frmHdr => Sys2Proof.Machine.execFrmHdr s
  | .frmInfo => Sys2Proof.Machine.execFrmInfo s
  | .frmExc => Sys2Proof.Machine.execFrmExc s
  | .frmRemain => Sys2Proof.Machine.execFrmRemain s
  | .frmRxcrc => Sys2Proof.Machine.execFrmRxcrc s
  | .sysStat => Sys2Proof.Machine.execSysStat s
  | .frmReg k => Sys2Proof.Machine.execFrmReg k s
  | .ill wr _ _ => Sys2Proof.Machine.execIll wr s
  -- function-code rows, 41_frame_check.md R111 and R117
  | .fcReadHolding => Sys2Proof.Machine.execFcReadHolding s
  | .fcReadInput => Sys2Proof.Machine.execFcReadInput s
  | .fcWriteSingle => Sys2Proof.Machine.execFcWriteSingle s
  | .fcCalibration => Sys2Proof.Machine.execFcCalibration s
  | .fcResetEnergy => Sys2Proof.Machine.execFcResetEnergy s
  | .fcOther fc => Sys2Proof.Machine.execFcOther fc s
  | .fcErrorReply c => Sys2Proof.Machine.execFcErrorReply c s

end Sys2Proof.Machine
end

