-- ==== Sys2Proof/Machine/Step.lean ====
section
/-! DEFINITION. One step: the block takes the next bus cycle at its port (00_scope.md R8, 20_memory.md
R50). -/

namespace Sys2Proof.Machine

/-- One bus cycle: reset has priority over a command offered with it (R210); a selected cycle runs its
command word; any other cycle is idle (R205). -/
def busStep (c : BusCycle) (s : State) : Host.Outcome State Fault Refusal :=
  if c.rst then .next s.applyReset
  else if c.sel then exec (decodeCmd c.word) s
  else .next s.idle

/-- The block takes the oldest bus cycle; with nothing at the port it holds its state (R205, R226). -/
def step (s : State) : Host.Outcome State Fault Refusal :=
  match s.port with
  | [] => .next s.idle
  | c :: rest => busStep c { s with port := rest }

/-- `s` with the instruction of `nbits` bits `w` placed where the next step takes it from: a command word
at the head of the port; a function code where the next `frm.end` dispatches on it (log entries 3, 6).
A number that is no code of the table changes nothing. -/
def State.withFetchWord (s : State) (nbits w : Nat) : State :=
  match codeOfNumber nbits w with
  | .ok (.cmd c) => placeCmd s c
  | .ok (.reqFc b) => placeReqFc s b
  | .ok (.rxFc b) => placeRxFc s b
  | .error _ => s

end Sys2Proof.Machine
end

