-- ==== Sys2Proof/Machine/Frames.lean ====
section
/-! DEFINITION. The frame layouts as data formats (30_encoding.md R63, R67 to R73; 00_scope.md R3 item 4:
the host assembles a request, GEN produces its CRC) and the pseudo-commands and raw forms of R79 and
R80. No step runs them: claims are stated with them. -/

namespace Sys2Proof.Machine

/-- The generic frame: the CRC covers every byte before it and goes out low byte first (R41, R63). -/
def withCrc (body : List Byte) : List Byte := body ++ wireBytes (crc16 body)

/-- The two bytes of a body word, high byte first (R42). -/
def beBytes (w : Word) : List Byte := [highByte w, lowByte w]

/-- `encode_read`, R67. -/
def readRequest (address function : Byte) (register count : Word) : List Byte :=
  withCrc ([address, function] ++ beBytes register ++ beBytes count)

/-- `encode_write_single`, R68. -/
def writeSingleRequest (address : Byte) (register value : Word) : List Byte :=
  withCrc ([address, 0x06#8] ++ beBytes register ++ beBytes value)

/-- `encode_no_body` for ResetEnergy, R69. -/
def resetEnergyRequest (address : Byte) : List Byte := withCrc [address, 0x42#8]

/-- `encode_no_body` for Calibration with the password 0x3721, R69. -/
def calibrationRequest (address : Byte) : List Byte := withCrc ([address, 0x41#8] ++ beBytes 0x3721#16)

/-- The read response of R71 with a payload of whole words. -/
def readReply (address function : Byte) (words : List Word) : List Byte :=
  withCrc ([address, function, BitVec.ofNat 8 (2 * words.length)] ++ words.flatMap beBytes)

/-- The fixed-length reply of R73 with a body of whole words. -/
def fixedReply (address function : Byte) (words : List Word) : List Byte :=
  withCrc ([address, function] ++ words.flatMap beBytes)

/-- The error reply of R72. -/
def errorReply (address : Byte) (c : BitVec 7) (code : Byte) : List Byte :=
  withCrc [address, errorCodeByte c, code]

/-- `wr A, D` (R79). -/
def rawWrite (a : Byte) (d : Word) : CmdWord := cmdWord true a d

/-- `rd A`, with `D` written as 0 (R79). -/
def rawRead (a : Byte) : CmdWord := cmdWord false a 0#16

/-- `crc.msg b0, ..., bk` (R80). -/
def crcMsg (bs : List Byte) : List Instr := .crcInit :: bs.map .crcUpd

/-- `crc.wire` (R80). -/
def crcWire : List Instr := [.crcRdlo, .crcRdhi]

/-- `frm.frame b0, ..., bk` (R80). -/
def frmFrame (bs : List Byte) : List Instr := .frmStart :: (bs.map .frmPush ++ [.frmEnd])

/-- `frm.expect a, f` (R80). -/
def frmExpect (a f : Byte) : List Instr := [.frmReq a f]

/-- `frm.flush` (R80). -/
def frmFlush : List Instr := [.frmStart]

end Sys2Proof.Machine
end

