-- ==== Sys2Proof/Safety.lean ====
section
/-! DEFINITION. What counts as a sound state, and when two states look the same: the terms the claims
use. -/

namespace Sys2Proof.Machine

/-- The state of the frame buffer: canonical form, nothing listed outside FB, and every byte below
`LEN` written (R23). -/
structure State.BufferInv (s : State) : Prop where
  canonical : Memory.wf s.fb
  inside : ∀ c ∈ s.fb, c.1 < s.cfg.frameMax
  written : ∀ a, a < s.len → (Memory.lookup s.fb a).isSome = true

/-- The invariant of the block: the nine items of R30 (item 9, on `ILL`, is about steps and stated apart)
and what they rest on. -/
structure State.Inv (s : State) : Prop where
  /-- The parameters meet the constraints of R5. -/
  cfg_wf : s.cfg.wf
  buffer : s.BufferInv
  /-- R30 item 1. -/
  len_le : s.len ≤ s.cfg.frameMax
  /-- R30 item 2. -/
  rxcrc_eq : s.rxcrc = crc16 s.frame
  /-- R30 item 3. -/
  open_clear : s.done = false →
    s.result = .none ∧ s.crcOk = false ∧ s.cls = .raw ∧ s.amatch = false ∧ s.fmatch = false ∧ s.stale = false
  /-- R30 item 4. -/
  closed_verdict : s.done = true → s.result ≠ .none
  /-- R30 item 5. -/
  ovr_full : s.ovr = true → s.len = s.cfg.frameMax
  /-- R30 item 6. -/
  passed_crc : passed s.result = true → s.crcOk = true ∧ s.ovr = false
  /-- R30 item 7. -/
  error_reply : s.result = .protocolError → s.len = 5 ∧ errorFlag (s.fbByte 1) = true ∧ s.cls ≠ .raw
  /-- R30 item 8. -/
  raw_verdict : s.done = true → s.cls = .raw → s.result = .ok ∨ s.result = .corruptFrame
  /-- R18: what `CRC_OK` holds of a closed frame. -/
  crcOk_eq : s.done = true → s.crcOk = crcVerdict s.ovr s.frame
  /-- A trusted read reply is as long as its byte count says (R117 step 3r). -/
  read_length : s.result = .ok → s.cls = .read → s.len = 5 + (s.fbByte 2).toNat
  /-- A trusted fixed reply has one of the lengths of R73. -/
  fixed_length : s.result = .ok → s.cls = .fixed →
    s.len = s.cfg.lenWriteReply ∨ s.len = s.cfg.lenCalibReply ∨ s.len = s.cfg.lenResetReply
  /-- R20: the match flags are 0 unless the frame is trusted. -/
  match_trusted : s.amatch = true ∨ s.fmatch = true → trusted s = true

/-- Two states agree on all of unit CHK: every element of R10 but `CRC` and `ILL`. -/
def State.sameChk (s t : State) : Prop :=
  s.cfg = t.cfg ∧ s.reqAddr = t.reqAddr ∧ s.reqFc = t.reqFc ∧ s.fb = t.fb ∧ s.len = t.len ∧
  s.rxcrc = t.rxcrc ∧ s.done = t.done ∧ s.ovr = t.ovr ∧ s.stale = t.stale ∧ s.result = t.result ∧
  s.crcOk = t.crcOk ∧ s.cls = t.cls ∧ s.amatch = t.amatch ∧ s.fmatch = t.fmatch

/-- Two states agree on everything but the contents of FB, and on the bytes of FB below `LEN`. -/
def State.agreeBelowLen (s t : State) : Prop :=
  t = { s with fb := t.fb } ∧ ∀ a, a < s.len → s.fbByte a = t.fbByte a

end Sys2Proof.Machine

namespace Sys2Proof

/-- A command of unit GEN (R10, R61). -/
def Instr.isGen : Instr → Bool
  | .crcInit | .crcUpd _ | .crcRd | .crcRdlo | .crcRdhi => true
  | .frmStart | .frmEnd | .frmPush _ | .frmReq _ _ | .frmRdreq => false
  | .frmStat | .frmLen | .frmHdr | .frmInfo | .frmExc => false
  | .frmRemain | .frmRxcrc | .sysStat | .frmReg _ | .ill _ _ _ => false
  | .fcReadHolding | .fcReadInput | .fcWriteSingle => false
  | .fcCalibration | .fcResetEnergy | .fcOther _ | .fcErrorReply _ => false

/-- A command of unit CHK, or a function code CHK dispatches on (R10, R61, R66). -/
def Instr.isChk : Instr → Bool
  | .crcInit | .crcUpd _ | .crcRd | .crcRdlo | .crcRdhi => false
  | .frmStart | .frmEnd | .frmPush _ | .frmReq _ _ | .frmRdreq => true
  | .frmStat | .frmLen | .frmHdr | .frmInfo | .frmExc => true
  | .frmRemain | .frmRxcrc | .frmReg _ => true
  | .sysStat | .ill _ _ _ => false
  | .fcReadHolding | .fcReadInput | .fcWriteSingle => true
  | .fcCalibration | .fcResetEnergy | .fcOther _ | .fcErrorReply _ => true

/-- An instruction that closes a frame: `frm.end`, or a row it dispatches to. -/
def Instr.closes : Instr → Bool
  | .crcInit | .crcUpd _ | .crcRd | .crcRdlo | .crcRdhi => false
  | .frmStart | .frmPush _ | .frmReq _ _ | .frmRdreq => false
  | .frmStat | .frmLen | .frmHdr | .frmInfo | .frmExc => false
  | .frmRemain | .frmRxcrc | .frmReg _ | .sysStat | .ill _ _ _ => false
  | .frmEnd | .fcReadHolding | .fcReadInput | .fcWriteSingle => true
  | .fcCalibration | .fcResetEnergy | .fcOther _ | .fcErrorReply _ => true

end Sys2Proof
end

