-- ==== Sys2Proof/Certificates/Slice0/Obligations.lean ====
section
/-! DEFINITION. The statements for the provers. Each docstring names the rule it formalises. A result
statement is an equation `exec i s = .next t`, so it is at once the result, the frame (every field of the
state that `t` does not name is unchanged) and the completion of the instruction. -/

open Sys2Proof Sys2Proof.Machine

/-! ## The machine: steps, reset, invariants -/

/-- R8, R50, R81: a step with a transaction at the port runs the command its word decodes to, and moves
past it; decoding reads the three bus fields and no state. -/
def Obligations.StepRunsBusCommand : Prop :=
  ∀ (s : State) (c : BusCycle) (rest : List BusCycle),
    s.port = c :: rest → c.rst = false → c.sel = true →
    step s = exec (decodeCmd (cmdWord c.wr c.addr c.wdata)) { s with port := rest } ∧
    ∀ i : Instr, i.wf = true → encode i = .cmd (cmdWord c.wr c.addr c.wdata) →
      step s = exec i { s with port := rest }

/-- R205, R33: with nothing at the port, or a cycle that requests nothing, the block holds its state. -/
def Obligations.StepWithoutCommandHoldsState : Prop :=
  (∀ s : State, s.port = [] → step s = .next { s with ready := false, rdata := none }) ∧
  (∀ (s : State) (c : BusCycle) (rest : List BusCycle),
    s.port = c :: rest → c.rst = false → c.sel = false →
    step s = .next { s with port := rest, ready := false, rdata := none })

/-- R210: a cycle with `rst` puts every element at its value, does not write FB, and abandons a command
offered with it. -/
def Obligations.ResetCycleLoadsResetValues : Prop :=
  ∀ (s : State) (c : BusCycle) (rest : List BusCycle), s.port = c :: rest → c.rst = true →
    step s = .next
      { s with
        crc := 0xFFFF#16, rxcrc := 0xFFFF#16, len := 0, done := false, ovr := false, stale := false,
        result := .none, crcOk := false, cls := .raw, amatch := false, fmatch := false,
        reqAddr := 0#8, reqFc := 0#8, ill := false, port := rest, ready := false, rdata := none }

/-- R31: the reset table, and that it is the state after `crc.init; frm.req 0, 0; frm.start` in every
element but ILL and FB, from any state. The fields `cfg`, `port`, `ready`, `rdata` are the model's own. -/
def Obligations.ResetStateIsTableR31 : Prop :=
  (State.reset.crc = 0xFFFF#16 ∧ State.reset.rxcrc = 0xFFFF#16 ∧ State.reset.len = 0 ∧
    State.reset.done = false ∧ State.reset.ovr = false ∧ State.reset.stale = false ∧
    State.reset.result = .none ∧ State.reset.crcOk = false ∧ State.reset.cls = .raw ∧
    State.reset.amatch = false ∧ State.reset.fmatch = false ∧ State.reset.reqAddr = 0#8 ∧
    State.reset.reqFc = 0#8 ∧ State.reset.ill = false) ∧
  (∀ s : State, ∃ s1 s2 s3, exec .crcInit s = .next s1 ∧ exec (.frmReq 0#8 0#8) s1 = .next s2 ∧
    exec .frmStart s2 = .next s3 ∧
    s3 = { State.reset with cfg := s.cfg, fb := s.fb, ill := s.ill, port := s.port, ready := true })

/-- R30: the invariant holds at reset. -/
def Obligations.InvariantHoldsAtReset : Prop := State.reset.Inv

/-- R30: every step from a state of the invariant leads to a state of the invariant. -/
def Obligations.InvariantKeptByStep : Prop :=
  ∀ s t : State, s.Inv → step s = .next t → t.Inv

/-- R30, R110: every command keeps the invariant, in whatever state of it the host issues the command; and
so does every function-code row (what running one means is the model's choice, log entry 6), `fc.error_reply`
under the premise that the stored frame carries its code. -/
def Obligations.InvariantKeptByEveryCommand : Prop :=
  ∀ (i : Instr) (s t : State), s.Inv → exec i s = .next t →
    (∀ c, i = .fcErrorReply c → s.frame[1]? = some (errorCodeByte c)) → t.Inv

/-- R190, R225: from a state of the invariant no step stops; every command completes. -/
def Obligations.EveryStepCompletes : Prop :=
  ∀ s : State, s.Inv → ∃ t, step s = .next t ∧ t.Inv ∧ t.port = s.port.tail

/-- R23, R31, 93 X1: no step reads a byte of FB at an address at or above LEN: two states that differ
only in such bytes take the same step, and still differ only in such bytes. -/
def Obligations.BytesAboveLenAreNeverRead : Prop :=
  ∀ s t s' : State, s.Inv → s.agreeBelowLen t → step s = .next s' →
    ∃ t', step t = .next t' ∧ s'.agreeBelowLen t'

/-- R22: ILL is set by an illegal access and by nothing else, cleared only by reset, and changes no other
behaviour: the same step with ILL flipped differs in ILL and in what `sys.stat` returns. -/
def Obligations.IllIsStickyAndInert : Prop :=
  (∀ (i : Instr) (s t : State), exec i s = .next t →
    (t.ill = true ↔ s.ill = true ∨ ∃ wr a d, i = .ill wr a d)) ∧
  (∀ s t : State, step s = .next t → s.ill = true → t.ill = false →
    ∃ c rest, s.port = c :: rest ∧ c.rst = true) ∧
  (∀ (i : Instr) (s t : State) (b : Bool), exec i s = .next t → i ≠ .sysStat →
    ∃ b', exec i { s with ill := b } = .next { t with ill := b' }) ∧
  (∀ s : State, exec .sysStat s =
    .next { s with ready := true, rdata := some (if s.ill then 0x0001#16 else 0x0000#16) })

/-- R10: GEN and CHK share no state. -/
def Obligations.UnitsShareNoState : Prop :=
  (∀ (i : Instr) (s t : State), i.isGen = true → exec i s = .next t → s.sameChk t ∧ t.ill = s.ill) ∧
  (∀ (i : Instr) (s s' t : State), i.isGen = true → s.crc = s'.crc → exec i s = .next t →
    ∃ t', exec i s' = .next t' ∧ t'.crc = t.crc ∧ t'.rdata = t.rdata) ∧
  (∀ (i : Instr) (s t : State) (c : Word), i.isChk = true → exec i s = .next t →
    t.crc = s.crc ∧ t.ill = s.ill ∧ exec i { s with crc := c } = .next { t with crc := c }) ∧
  (∀ (wr : Bool) (a : Byte) (d : Word) (s t : State), exec (.ill wr a d) s = .next t →
    s.sameChk t ∧ t.crc = s.crc ∧ t.ill = true)

/-- R47: reads are free of side effects except that an illegal read sets ILL; a legal read repeated
returns the same value; which writes are idempotent, and that `crc.upd` and `frm.push` are not. -/
def Obligations.ReadsHaveNoSideEffects : Prop :=
  (∀ (a : Byte) (d : Word) (s t : State), exec (decodeCmd (cmdWord false a d)) s = .next t →
    t = { s with
      ready := true, rdata := t.rdata,
      ill := s.ill || decide (decodeCmd (cmdWord false a d) = .ill false a d) } ∧
    (decodeCmd (cmdWord false a d) ≠ .ill false a d → exec (decodeCmd (cmdWord false a d)) t = .next t)) ∧
  (∀ (i : Instr) (s t : State), i = .crcInit ∨ i = .frmStart ∨ i = .frmEnd ∨ (∃ a f, i = .frmReq a f) →
    exec i s = .next t → exec i t = .next t) ∧
  (∀ (b : Byte) (s t u : State), exec (.crcUpd b) s = .next t → exec (.crcUpd b) t = .next u →
    u.crc = crcByte (crcByte s.crc b) b) ∧
  (∀ (b : Byte) (s t u : State), s.done = false → s.len + 1 < s.cfg.frameMax →
    exec (.frmPush b) s = .next t → exec (.frmPush b) t = .next u → u.frame = s.frame ++ [b, b])

/-- R151: the only store into FB is an accepted push, of one byte at the address LEN; every other
instruction, and every dropped push, leaves every byte as it was. -/
def Obligations.OnlyPushStoresToTheBuffer : Prop :=
  ∀ (i : Instr) (s t : State), exec i s = .next t → ∀ a : Nat,
    (∀ b, i = .frmPush b → pushTarget s = some a → t.fbByte a = b ∧ t.len = a + 1) ∧
    ((∀ b, i = .frmPush b → pushTarget s ≠ some a) → t.fbByte a = s.fbByte a)

/-- R110: the state machine of CHK, its nine cells, and that no other command changes it. -/
def Obligations.ChkStateMachine : Prop :=
  (∀ s : State, ∃ t, exec .frmStart s = .next t ∧ t.done = false ∧ t.len = 0 ∧ t.fb = s.fb ∧
    t.rxcrc = 0xFFFF#16 ∧ t.ovr = false ∧ t.stale = false ∧ t.result = .none ∧ t.crcOk = false ∧
    t.cls = .raw ∧ t.amatch = false ∧ t.fmatch = false) ∧
  (∀ (s : State) (b : Byte), s.done = false → s.len < s.cfg.frameMax → ∃ t, exec (.frmPush b) s = .next t ∧
    t.done = false ∧ t.len = s.len + 1 ∧ t.frame = s.frame ++ [b] ∧ t.rxcrc = crcByte s.rxcrc b ∧
    t.ovr = s.ovr ∧ t.stale = s.stale) ∧
  (∀ (s : State) (b : Byte), s.done = false → s.len = s.cfg.frameMax → ∃ t, exec (.frmPush b) s = .next t ∧
    t.done = false ∧ t.ovr = true ∧ t.frame = s.frame ∧ t.stale = s.stale) ∧
  (∀ (s : State) (b : Byte), s.done = true → ∃ t, exec (.frmPush b) s = .next t ∧
    t.done = true ∧ t.stale = true ∧ t.frame = s.frame ∧ t.ovr = s.ovr ∧ t.result = s.result) ∧
  (∀ s : State, s.done = false → s.len ≤ s.cfg.frameMax → ∃ t, exec .frmEnd s = .next t ∧
    t.done = true ∧ t.result ≠ .none ∧ t = { s with
      result := t.result, crcOk := t.crcOk, cls := t.cls, amatch := t.amatch, fmatch := t.fmatch,
      done := true, ready := true, rdata := none }) ∧
  (∀ s : State, s.done = true → ∃ t, exec .frmEnd s = .next t ∧ t.done = true ∧ t.result = s.result) ∧
  (∀ (i : Instr) (s t : State), i ≠ .frmStart → (∀ b, i ≠ .frmPush b) → i.closes = false →
    exec i s = .next t →
    t.done = s.done ∧ t.len = s.len ∧ t.fb = s.fb ∧ t.rxcrc = s.rxcrc ∧ t.ovr = s.ovr ∧
    t.stale = s.stale ∧ t.result = s.result ∧ t.crcOk = s.crcOk ∧ t.cls = s.cls ∧
    t.amatch = s.amatch ∧ t.fmatch = s.fmatch)

/-- R32, 93 X8: no instruction changes a parameter (`cfg`, log entry 2) or the bus cycles to come (`port`,
log entry 3); REQ_ADDR and REQ_FC change only by `frm.req` (R21); R190, R225: from a state of the invariant
every instruction completes, and then `ready` is 1 (log entry 4). -/
def Obligations.ParametersAndRequestKept : Prop :=
  (∀ (i : Instr) (s t : State), exec i s = .next t →
    t.cfg = s.cfg ∧ t.port = s.port ∧ t.ready = true ∧
    ((∀ a f, i ≠ .frmReq a f) → t.reqAddr = s.reqAddr ∧ t.reqFc = s.reqFc)) ∧
  (∀ (i : Instr) (s : State), s.Inv → ∃ t, exec i s = .next t ∧ t.ready = true)

/-- Log entry 7 (the model's choice; 00_scope.md R7 gives FB no address at or above FRAME_MAX): in states
with `LEN > FRAME_MAX`, which no run reaches, an open push and an open `frm.end` fault. -/
def Obligations.AccessOutsideBufferFaults : Prop :=
  ∀ s : State, s.done = false → s.cfg.frameMax < s.len →
    (∀ b, exec (.frmPush b) s = .fault (.fbWriteOutside s.len)) ∧
    exec .frmEnd s = .fault (.fbReadOutside s.cfg.frameMax)

/-! ## Encoding -/

/-- R60 to R62, R65, R66: decoding the encoding of a well-formed instruction gives it back, with every
operand. -/
def Obligations.DecodeEncodeAgree : Prop :=
  ∀ i : Instr, i.wf = true → decode (encode i) = .ok i

/-- The other direction: what a code decodes to is well formed and is encoded in the same space, at the
same access and address; function codes come back bit for bit. -/
def Obligations.EncodeDecodeAgree : Prop :=
  (∀ w : CmdWord, (decodeCmd w).wf = true ∧ ∃ w', encode (decodeCmd w) = .cmd w' ∧
    cmdWr w' = cmdWr w ∧ cmdAddr w' = cmdAddr w ∧ decodeCmd w' = decodeCmd w) ∧
  (∀ b : Byte, (decodeReqFc b).wf = true ∧ encode (decodeReqFc b) = .reqFc b) ∧
  (∀ (b : Byte) (i : Instr), decodeRxFc b = .ok i → i.wf = true ∧ encode i = .rxFc b)

/-- R153, R75: exactly the listed accesses are the illegal command, in whatever state, and what it does. -/
def Obligations.IllegalAccessesAreExactlyR153 : Prop :=
  (∀ (wr : Bool) (a : Byte) (d : Word),
    decodeCmd (cmdWord wr a d) = .ill wr a d ↔
      (wr = true ∧ ((0x02 ≤ a.toNat ∧ a.toNat ≤ 0x04) ∨ (0x13 ≤ a.toNat ∧ a.toNat ≤ 0x19) ∨
        a.toNat = 0x7F ∨ 0x80 ≤ a.toNat)) ∨
      (wr = false ∧ (a.toNat = 0x00 ∨ a.toNat = 0x01 ∨ a.toNat = 0x10 ∨ a.toNat = 0x11)) ∨
      ((0x05 ≤ a.toNat ∧ a.toNat ≤ 0x0F) ∨ (0x1A ≤ a.toNat ∧ a.toNat ≤ 0x7E)) ∨
      (wr = true ∧ a.toNat = 0x00 ∧ d.toNat ≠ 0x0001) ∨
      (wr = true ∧ a.toNat = 0x10 ∧ d.toNat ≠ 0x0001 ∧ d.toNat ≠ 0x0002)) ∧
  (∀ (wr : Bool) (a : Byte) (d : Word) (s : State), exec (.ill wr a d) s = .next
    { s with ill := true, ready := true, rdata := if wr then none else some 0x0000#16 })

/-- R62: operand assembly of the commands. -/
def Obligations.OperandsAreAssembledAsR62 : Prop :=
  (∀ hi b : Byte, decodeCmd (cmdWord true 0x01#8 (hi ++ b)) = .crcUpd b ∧
    decodeCmd (cmdWord true 0x11#8 (hi ++ b)) = .frmPush b) ∧
  (∀ a f : Byte, decodeCmd (cmdWord true 0x12#8 (a ++ f)) = .frmReq a f) ∧
  (∀ (a : Byte) (d : Word), 0x80 ≤ a.toNat →
    decodeCmd (cmdWord false a d) = .frmReg (BitVec.ofNat 7 (a.toNat - 0x80))) ∧
  (∀ d : Word, (decodeCmd (cmdWord true 0x00#8 d) = .crcInit ↔ d = 0x0001#16) ∧
    (decodeCmd (cmdWord true 0x10#8 d) = .frmStart ↔ d = 0x0001#16) ∧
    (decodeCmd (cmdWord true 0x10#8 d) = .frmEnd ↔ d = 0x0002#16))

/-- R79, 95 P1 to P6, R65, R66: words and function codes written out in the spec decode to the instructions
named beside them; a number of more than 25 bits is no command word (R60). That the 8-bit code 0x84 is read
as a received code, `fc.error_reply`, is the model's choice (log entry 6): in REQ_FC it is `fc.other`
(R111). -/
def Obligations.SpecWordsDecode : Prop :=
  decodeTableWord 32 0x1000001 = some .crcInit ∧
  decodeTableWord 32 0x10100F8 = some (.crcUpd 0xF8#8) ∧
  decodeTableWord 32 0x112F804 = some (.frmReq 0xF8#8 0x04#8) ∧
  decodeTableWord 32 0x1100001 = some .frmStart ∧
  decodeTableWord 32 0x1100002 = some .frmEnd ∧
  decodeTableWord 32 0x11100FC = some (.frmPush 0xFC#8) ∧
  decodeTableWord 32 0x0830000 = some (.frmReg 3#7) ∧
  decodeTableWord 32 0x07F0000 = some .sysStat ∧
  decodeTableWord 32 0x1100003 = some (.ill true 0x10#8 0x0003#16) ∧
  decodeTableWord 8 0x04 = some .fcReadInput ∧
  decodeTableWord 8 0x84 = some (.fcErrorReply 4#7) ∧
  decodeTableWord 32 0x2000001 = none

/-- R111, R117 (log entry 6, the model's choice of what running a function-code row means): `frm.end`
with `DONE = 0` is the row that REQ_FC selects; where the frame carries an error code under a class that
reads headers, it is `fc.error_reply`. -/
def Obligations.FrmEndDispatchesOnFunctionCode : Prop :=
  (∀ s : State, s.done = false → exec .frmEnd s = exec (decodeReqFc s.reqFc) s) ∧
  (∀ (s : State) (c : BitVec 7), s.done = false → classOf s.cfg s.reqFc ≠ .raw →
    s.frame[1]? = some (errorCodeByte c) → exec .frmEnd s = exec (.fcErrorReply c) s)

/-- Log entries 3 and 6 (the model's interface): the placed instruction is the one the next step runs. -/
def Obligations.PlacedWordRunsNext : Prop :=
  (∀ (s : State) (w : Nat), w < 2 ^ 25 →
    step (s.withFetchWord 32 w) = exec (decodeCmd (BitVec.ofNat 25 w)) s) ∧
  (∀ (s : State) (b : Byte), b.getLsbD 7 = false → ∃ t, t.reqFc = b ∧ t.done = false ∧ t.port = s.port ∧
    (s.done = false → t = { s with reqFc := b }) ∧
    step (s.withFetchWord 8 b.toNat) = exec (decodeReqFc b) t) ∧
  (∀ (s : State) (c : BitVec 7), ∃ t, t.done = false ∧ t.port = s.port ∧
    t.frame[1]? = some (errorCodeByte c) ∧
    step (s.withFetchWord 8 (errorCodeByte c).toNat) = exec (.fcErrorReply c) t)

/-! ## Unit GEN: the functions -/

/-- R91: `crc_byte` as its pseudocode, and the worked example with its eight iterations. -/
def Obligations.CrcByteIsR91 : Prop :=
  (∀ (c : Word) (b : Byte), crcByte c b =
    (fun r : Word => if r.getLsbD 0 = true then (r >>> 1) ^^^ 0xA001#16 else r >>> 1)^[8]
      (c ^^^ b.setWidth 16)) ∧
  ((List.range 8).map fun k => crcShifts (k + 1) (0xFFFF#16 ^^^ (0xF8#8 : Byte).setWidth 16)) =
    [0xDF82#16, 0x6FC1#16, 0x97E1#16, 0xEBF1#16, 0xD5F9#16, 0xCAFD#16, 0xC57F#16, 0xC2BE#16] ∧
  crcByte 0xFFFF#16 0xF8#8 = 0xC2BE#16

/-- R94: `crc_byte` is `crc_bit` applied eight times, least significant bit first. -/
def Obligations.CrcByteIsEightBitSteps : Prop :=
  ∀ (c : Word) (b : Byte), crcByte c b = (List.range 8).foldl (fun r k => crcBit r (b.getLsbD k)) c

/-- R95: the byte-parallel equations. -/
def Obligations.CrcByteEquations : Prop :=
  ∀ (c : Word) (b : Byte), ∀ x : Nat → Bool, (∀ k, x k = (c.getLsbD k ^^ b.getLsbD k)) →
    let n := (crcByte c b).getLsbD
    n 0 = (x 0 ^^ x 1 ^^ x 2 ^^ x 3 ^^ x 4 ^^ x 5 ^^ x 6 ^^ x 7 ^^ c.getLsbD 8) ∧
    n 1 = c.getLsbD 9 ∧ n 2 = c.getLsbD 10 ∧ n 3 = c.getLsbD 11 ∧ n 4 = c.getLsbD 12 ∧
    n 5 = c.getLsbD 13 ∧ n 6 = (x 0 ^^ c.getLsbD 14) ∧ n 7 = (x 0 ^^ x 1 ^^ c.getLsbD 15) ∧
    n 8 = (x 1 ^^ x 2) ∧ n 9 = (x 2 ^^ x 3) ∧ n 10 = (x 3 ^^ x 4) ∧ n 11 = (x 4 ^^ x 5) ∧
    n 12 = (x 5 ^^ x 6) ∧ n 13 = (x 6 ^^ x 7) ∧
    n 14 = (x 0 ^^ x 1 ^^ x 2 ^^ x 3 ^^ x 4 ^^ x 5 ^^ x 6) ∧
    n 15 = (x 0 ^^ x 1 ^^ x 2 ^^ x 3 ^^ x 4 ^^ x 5 ^^ x 6 ^^ x 7)

/-- R92 and its worked example with the values it passes through. -/
def Obligations.Crc16IsR92 : Prop :=
  crc16 [] = 0xFFFF#16 ∧
  (∀ (s : List Byte) (b : Byte), crc16 (s ++ [b]) = crcByte (crc16 s) b) ∧
  ((List.range 7).map fun k => crc16 ([0xF8#8, 0x04#8, 0x00#8, 0x00#8, 0x00#8, 0x0A#8].take k)) =
    [0xFFFF#16, 0xC2BE#16, 0xB343#16, 0xF1F2#16, 0x8570#16, 0xE484#16, 0x6464#16]

/-- R93: streaming. -/
def Obligations.Crc16Streams : Prop :=
  ∀ s t : List Byte, crc16 (s ++ t) = t.foldl crcByte (crc16 s)

/-- R97: `validate`, for every byte sequence, with the corner cases of one and two bytes. -/
def Obligations.ValidateIsR97 : Prop :=
  (∀ f : List Byte, f.length < 2 → validate f = false) ∧
  (∀ (s : List Byte) (l h : Byte),
    validate (s ++ [l, h]) = true ↔ l = (crc16 s).extractLsb' 0 8 ∧ h = (crc16 s).extractLsb' 8 8) ∧
  (∀ l h : Byte, validate [l, h] = true ↔ l = 0xFF#8 ∧ h = 0xFF#8)

/-- R98, first half: the round trip. -/
def Obligations.CrcRoundTrip : Prop :=
  ∀ s : List Byte, validate (s ++ [lowByte (crc16 s), highByte (crc16 s)]) = true

/-- R98, second half: flipping one bit of the data, the CRC bytes left alone, always makes the frame
invalid. -/
def Obligations.SingleBitFlipIsDetected : Prop :=
  ∀ (s t : List Byte) (b : Byte) (k : Nat), k < 8 →
    validate (s ++ [b ^^^ (1#8 <<< k)] ++ t ++ wireBytes (crc16 (s ++ [b] ++ t))) = false

/-- R98: for a fixed byte, `crc_byte` is a bijection of the 16-bit words. -/
def Obligations.CrcByteIsBijective : Prop :=
  ∀ b : Byte, Function.Bijective (fun c : Word => crcByte c b)

/-- R99: the residue. -/
def Obligations.ValidateIffResidueZero : Prop :=
  ∀ f : List Byte, 2 ≤ f.length → (validate f = true ↔ crc16 f = 0x0000#16)

/-! ## Unit GEN: the commands -/

/-- R100: `crc.init`. -/
def Obligations.CrcInitLoadsOnes : Prop :=
  decodeCmd (cmdWord true 0x00#8 0x0001#16) = .crcInit ∧
  (∀ s : State, exec .crcInit s = .next { s with crc := 0xFFFF#16, ready := true, rdata := none }) ∧
  (∀ d : Word, d ≠ 0x0001#16 → ∀ s : State, exec (decodeCmd (cmdWord true 0x00#8 d)) s =
    .next { s with ill := true, ready := true, rdata := none })

/-- R101: `crc.upd b`. -/
def Obligations.CrcUpdFoldsOneByte : Prop :=
  (∀ d : Word, decodeCmd (cmdWord true 0x01#8 d) = .crcUpd (d.extractLsb' 0 8)) ∧
  (∀ (s : State) (b : Byte), exec (.crcUpd b) s =
    .next { s with crc := crcByte s.crc b, ready := true, rdata := none }) ∧
  crcByte 0xFFFF#16 0x00#8 = 0x40BF#16 ∧ crcByte 0x0000#16 0x00#8 = 0x0000#16 ∧
  crcByte 0xFFFF#16 0xF8#8 = 0xC2BE#16

/-- R102, R103, R104: the three reads of CRC, which change nothing. -/
def Obligations.CrcReadsReturnTheRegister : Prop :=
  (∀ d : Word, decodeCmd (cmdWord false 0x02#8 d) = .crcRd ∧
    decodeCmd (cmdWord false 0x03#8 d) = .crcRdlo ∧ decodeCmd (cmdWord false 0x04#8 d) = .crcRdhi) ∧
  (∀ s : State, exec .crcRd s = .next { s with ready := true, rdata := some s.crc } ∧
    exec .crcRdlo s =
      .next { s with ready := true, rdata := some ((s.crc.extractLsb' 0 8).setWidth 16) } ∧
    exec .crcRdhi s =
      .next { s with ready := true, rdata := some ((s.crc.extractLsb' 8 8).setWidth 16) }) ∧
  crc16 [0xF8#8, 0x42#8] = 0x41C2#16 ∧
  crc16 [0xF8#8, 0x04#8, 0x00#8, 0x00#8, 0x00#8, 0x0A#8] = 0x6464#16

/-! ## Unit CHK: dispatch and verdict -/

/-- R111: the dispatch on all eight bits, the defaults of the reply lengths (and of FRAME_MAX, R5), the
encodings of the classes, and that `frm.end` dispatches on the request's function code. -/
def Obligations.ClassOfIsR111 : Prop :=
  (State.reset.cfg.frameMax = 260 ∧ State.reset.cfg.lenWriteReply = 8 ∧ State.reset.cfg.lenCalibReply = 6 ∧
    State.reset.cfg.lenResetReply = 4) ∧
  (∀ s t : State, s.done = false → exec .frmEnd s = .next t →
    t.cls = classOfLayout (classOf s.cfg s.reqFc)) ∧
  ∀ c : Config,
    classOf c 0x03#8 = .read ∧ classOf c 0x04#8 = .read ∧
    classOf c 0x06#8 = .fixed c.lenWriteReply ∧ classOf c 0x41#8 = .fixed c.lenCalibReply ∧
    classOf c 0x42#8 = .fixed c.lenResetReply ∧
    (∀ fc : Byte, fc ≠ 0x03#8 → fc ≠ 0x04#8 → fc ≠ 0x06#8 → fc ≠ 0x41#8 → fc ≠ 0x42#8 →
      classOf c fc = .raw) ∧
    Cls.code .raw = 0#2 ∧ Cls.code .read = 1#2 ∧ Cls.code .fixed = 2#2

/-- R117: the verdict, test by test in its order, and that it is never `NONE`. -/
def Obligations.VerdictFollowsTheOrderOfR117 : Prop :=
  ∀ (f : List Byte) (ovr v : Bool),
    (verdict .raw f ovr v = if v = true then .ok else .corruptFrame) ∧
    (∀ k : Layout, verdict k f ovr v ≠ .none) ∧
    (∀ k : Layout, k ≠ .raw →
      (f.length < 3 → verdict k f ovr v = .truncated) ∧
      (3 ≤ f.length → ovr = true → verdict k f ovr v = .lengthMismatch) ∧
      (∀ f1 f2 : Byte, 3 ≤ f.length → ovr = false → f[1]? = some f1 → f[2]? = some f2 →
        (f1 &&& 0x80#8 = 0x80#8 → f.length ≠ 5 → verdict k f ovr v = .lengthMismatch) ∧
        (f1 &&& 0x80#8 = 0x80#8 → f.length = 5 → v = false → verdict k f ovr v = .corruptFrame) ∧
        (f1 &&& 0x80#8 = 0x80#8 → f.length = 5 → v = true → verdict k f ovr v = .protocolError) ∧
        (f1 &&& 0x80#8 ≠ 0x80#8 → k = .read → (f2.toNat : Int) ≠ (f.length : Int) - 5 →
          verdict k f ovr v = .lengthMismatch) ∧
        (∀ l, f1 &&& 0x80#8 ≠ 0x80#8 → k = .fixed l → f.length ≠ l →
          verdict k f ovr v = .lengthMismatch) ∧
        (f1 &&& 0x80#8 ≠ 0x80#8 →
          (k = .read ∧ (f2.toNat : Int) = (f.length : Int) - 5) ∨ k = .fixed f.length →
          verdict k f ovr v = if v = true then .ok else .corruptFrame)))

/-- R115: `frm.end` with `DONE = 0`: everything it latches, from the live REQ_FC. -/
def Obligations.FrmEndLatchesTheVerdict : Prop :=
  decodeCmd (cmdWord true 0x10#8 0x0002#16) = .frmEnd ∧
  (∀ s : State, s.done = false → s.len ≤ s.cfg.frameMax → ∀ (v : Bool) (r : Result) (good : Bool),
    v = (!s.ovr && validate s.frame) →
    r = verdict (classOf s.cfg s.reqFc) s.frame s.ovr v →
    good = (decide (classOf s.cfg s.reqFc ≠ .raw) && decide (r = .ok ∨ r = .protocolError)) →
    exec .frmEnd s = .next
      { s with
        result := r, crcOk := v, cls := classOfLayout (classOf s.cfg s.reqFc),
        amatch := good && decide (s.fbByte 0 = s.reqAddr),
        fmatch := good && decide (s.fbByte 1 &&& 0x7F#8 = s.reqFc &&& 0x7F#8),
        done := true, ready := true, rdata := none } ∧
    (s.cfg.wf → good = true → 4 ≤ s.len)) ∧
  (∀ s : State, s.done = false → s.len ≤ s.cfg.frameMax → s.reqAddr = 0xF8#8 → s.reqFc = 0x04#8 →
    s.ovr = false → s.stale = false → s.frame = [0xF8#8, 0x84#8, 0x02#8, 0x12#8, 0xF0#8] →
    ∃ t, exec .frmEnd s = .next t ∧ t.result = .protocolError ∧ t.crcOk = true ∧ t.cls = .read ∧
      t.amatch = true ∧ t.fmatch = true ∧ t.done = true ∧
      exec .frmStat t = .next { t with ready := true, rdata := some 0x071B#16 })

/-- R116: a second `frm.end` has no effect. -/
def Obligations.SecondFrmEndDoesNothing : Prop :=
  ∀ s : State, s.done = true → exec .frmEnd s = .next { s with ready := true, rdata := none }

/-- R113: `frm.start`. -/
def Obligations.FrmStartClears : Prop :=
  decodeCmd (cmdWord true 0x10#8 0x0001#16) = .frmStart ∧
  (∀ s : State, exec .frmStart s = .next
    { s with
      len := 0, rxcrc := 0xFFFF#16, done := false, ovr := false, stale := false, result := .none,
      crcOk := false, cls := .raw, amatch := false, fmatch := false, ready := true, rdata := none })

/-- R114: `frm.push b`: the three cases, with the byte of FB each leaves at every address. -/
def Obligations.FrmPushStoresOrDrops : Prop :=
  (∀ d : Word, decodeCmd (cmdWord true 0x11#8 d) = .frmPush (d.extractLsb' 0 8)) ∧
  (∀ (s : State) (b : Byte), s.done = true →
    exec (.frmPush b) s = .next { s with stale := true, ready := true, rdata := none }) ∧
  (∀ (s : State) (b : Byte), s.done = false → s.len = s.cfg.frameMax →
    exec (.frmPush b) s = .next { s with ovr := true, ready := true, rdata := none }) ∧
  (∀ (s : State) (b : Byte), s.done = false → s.len < s.cfg.frameMax →
    ∃ t, exec (.frmPush b) s = .next t ∧
      t = { s with
        fb := t.fb, rxcrc := crcByte s.rxcrc b, len := s.len + 1, ready := true, rdata := none } ∧
      ∀ a, t.fbByte a = if a = s.len then b else s.fbByte a) ∧
  (∀ s : State, s.done = false → s.len = 0 → 0 < s.cfg.frameMax → s.rxcrc = 0xFFFF#16 →
    ∃ t, exec (.frmPush 0xF8#8) s = .next t ∧ t.fbByte 0 = 0xF8#8 ∧ t.len = 1 ∧ t.rxcrc = 0xC2BE#16)

/-- R111, R115 to R117 (log entry 6): each function-code row latches the verdict of the class it selects;
on a closed frame it has no effect, as `frm.end` has none. Under a REQ_FC of class RAW the row
`fc.error_reply` looks at no header, so its code has no effect and the CRC decides. -/
def Obligations.FunctionCodeRowsLatch : Prop :=
  (∀ (i : Instr) (s : State), i.closes = true → i ≠ .frmEnd → s.done = true →
    exec i s = .next { s with ready := true, rdata := none }) ∧
  ∀ s : State, s.done = false → s.len ≤ s.cfg.frameMax →
    (∀ (i : Instr) (k : Layout) (fc : Byte),
      (i = .fcReadHolding ∧ k = .read ∧ fc = 0x03#8) ∨ (i = .fcReadInput ∧ k = .read ∧ fc = 0x04#8) ∨
      (i = .fcWriteSingle ∧ k = .fixed s.cfg.lenWriteReply ∧ fc = 0x06#8) ∨
      (i = .fcCalibration ∧ k = .fixed s.cfg.lenCalibReply ∧ fc = 0x41#8) ∨
      (i = .fcResetEnergy ∧ k = .fixed s.cfg.lenResetReply ∧ fc = 0x42#8) ∨
      (i = .fcOther fc ∧ k = .raw) →
      ∃ t, exec i s = .next t ∧
        t.result = verdict k s.frame s.ovr (!s.ovr && validate s.frame) ∧
        t.crcOk = (!s.ovr && validate s.frame) ∧ t.cls = classOfLayout k ∧
        (t.fmatch = true ↔
          k ≠ .raw ∧ (t.result = .ok ∨ t.result = .protocolError) ∧
          s.fbByte 1 &&& 0x7F#8 = fc &&& 0x7F#8) ∧
        (t.amatch = true ↔
          k ≠ .raw ∧ (t.result = .ok ∨ t.result = .protocolError) ∧ s.fbByte 0 = s.reqAddr) ∧
        t = { s with
          result := t.result, crcOk := t.crcOk, cls := t.cls, amatch := t.amatch, fmatch := t.fmatch,
          done := true, ready := true, rdata := none }) ∧
    (∀ c : BitVec 7, classOf s.cfg s.reqFc ≠ .raw → ∃ t, exec (.fcErrorReply c) s = .next t ∧
      (t.result = .protocolError ↔ s.len = 5 ∧ s.ovr = false ∧ validate s.frame = true) ∧
      (t.result = .corruptFrame ↔ s.len = 5 ∧ s.ovr = false ∧ validate s.frame = false) ∧
      (t.result = .truncated ↔ s.len < 3) ∧ t.result ≠ .ok ∧ t.result ≠ .none ∧
      t.crcOk = (!s.ovr && validate s.frame) ∧ t.cls = classOfLayout (classOf s.cfg s.reqFc) ∧
      (t.amatch = true ↔ t.result = .protocolError ∧ s.fbByte 0 = s.reqAddr) ∧
      (t.fmatch = true ↔
        t.result = .protocolError ∧ errorCodeByte c &&& 0x7F#8 = s.reqFc &&& 0x7F#8) ∧
      t = { s with
        result := t.result, crcOk := t.crcOk, cls := t.cls, amatch := t.amatch, fmatch := t.fmatch,
        done := true, ready := true, rdata := none }) ∧
    (∀ c : BitVec 7, classOf s.cfg s.reqFc = .raw → exec (.fcErrorReply c) s = .next
      { s with
        result := if s.ovr = false ∧ validate s.frame = true then .ok else .corruptFrame,
        crcOk := !s.ovr && validate s.frame, cls := .raw, amatch := false, fmatch := false,
        done := true, ready := true, rdata := none })

/-- R71, R115, R117, R148, R150: a read reply of any words, under REQ_FC of class READ, is accepted, and
its words come out of the window one by one. -/
def Obligations.ReadReplyIsDelivered : Prop :=
  ∀ (s : State) (a fc : Byte) (ws : List Word), s.done = false → s.ovr = false →
    s.len ≤ s.cfg.frameMax → 5 ≤ s.cfg.frameMax → ws.length ≤ 127 →
    classOf s.cfg s.reqFc = .read → errorFlag fc = false → s.frame = readReply a fc ws →
    ∃ t, exec .frmEnd s = .next t ∧ t.result = .ok ∧ t.crcOk = true ∧ t.cls = .read ∧
      t.amatch = decide (a = s.reqAddr) ∧
      t.fmatch = decide (fc &&& 0x7F#8 = s.reqFc &&& 0x7F#8) ∧
      exec .frmHdr t = .next { t with ready := true, rdata := some (a ++ fc) } ∧
      exec .frmInfo t = .next { t with
        ready := true, rdata := some (BitVec.ofNat 16 (256 * ws.length + 2 * ws.length)) } ∧
      ∀ i : BitVec 7, exec (.frmReg i) t = .next { t with
        ready := true, rdata := some (ws[i.toNat]?.getD 0x0000#16) }

/-- R72, R117, R147, R149: an error reply to any function is reported, with its code and class, and no
data word. -/
def Obligations.ErrorReplyIsReported : Prop :=
  ∀ (s : State) (a code : Byte) (c : BitVec 7), s.done = false → s.ovr = false →
    s.len ≤ s.cfg.frameMax → 5 ≤ s.cfg.frameMax → classOf s.cfg s.reqFc ≠ .raw →
    s.frame = errorReply a c code →
    ∃ t, exec .frmEnd s = .next t ∧ t.result = .protocolError ∧ t.crcOk = true ∧
      t.amatch = decide (a = s.reqAddr) ∧
      exec .frmHdr t = .next { t with ready := true, rdata := some (a ++ (1#1 ++ c)) } ∧
      exec .frmExc t = .next { t with
        ready := true, rdata := some (BitVec.ofNat 16
          (256 * (if 1 ≤ code.toNat ∧ code.toNat ≤ 4 then code.toNat else 7) + code.toNat)) } ∧
      exec .frmInfo t = .next { t with ready := true, rdata := some 0x0000#16 } ∧
      ∀ i, exec (.frmReg i) t = .next { t with ready := true, rdata := some 0x0000#16 }

/-- R73, R117, R150: a fixed-length reply of the right length is accepted and its body words come out. For a
fixed length of 260 or more the word at index 127 comes out too, where R150 says that index 127 returns 0:
there it rests on log entry 9 (DEDUCED). -/
def Obligations.FixedReplyIsDelivered : Prop :=
  ∀ (s : State) (a fc : Byte) (ws : List Word), s.done = false → s.ovr = false →
    s.len ≤ s.cfg.frameMax → 5 ≤ s.cfg.frameMax →
    classOf s.cfg s.reqFc = .fixed (2 * ws.length + 4) → errorFlag fc = false →
    s.frame = fixedReply a fc ws →
    ∃ t, exec .frmEnd s = .next t ∧ t.result = .ok ∧ t.crcOk = true ∧ t.cls = .fixed ∧
      ∀ i : BitVec 7, exec (.frmReg i) t = .next { t with
        ready := true, rdata := some (ws[i.toNat]?.getD 0x0000#16) }

/-- R67 to R69: the request layouts, byte by byte, and that each carries its CRC. -/
def Obligations.RequestFramesCarryTheirCrc : Prop :=
  (∀ (a fc : Byte) (r n : Word), ∃ lo hi, readRequest a fc r n =
    [a, fc, r.extractLsb' 8 8, r.extractLsb' 0 8, n.extractLsb' 8 8, n.extractLsb' 0 8, lo, hi] ∧
    hi ++ lo = crc16 [a, fc, r.extractLsb' 8 8, r.extractLsb' 0 8, n.extractLsb' 8 8, n.extractLsb' 0 8] ∧
    validate (readRequest a fc r n) = true) ∧
  (∀ (a : Byte) (r n : Word), ∃ lo hi, writeSingleRequest a r n =
    [a, 0x06#8, r.extractLsb' 8 8, r.extractLsb' 0 8, n.extractLsb' 8 8, n.extractLsb' 0 8, lo, hi] ∧
    validate (writeSingleRequest a r n) = true) ∧
  (∀ a : Byte, ∃ lo hi, resetEnergyRequest a = [a, 0x42#8, lo, hi] ∧
    validate (resetEnergyRequest a) = true) ∧
  (∀ a : Byte, ∃ lo hi, calibrationRequest a = [a, 0x41#8, 0x37#8, 0x21#8, lo, hi] ∧
    validate (calibrationRequest a) = true) ∧
  readRequest 0xF8#8 0x04#8 0x0000#16 0x000A#16 =
    [0xF8#8, 0x04#8, 0x00#8, 0x00#8, 0x00#8, 0x0A#8, 0x64#8, 0x64#8] ∧
  writeSingleRequest 0xF8#8 0x0001#16 0x08FC#16 =
    [0xF8#8, 0x06#8, 0x00#8, 0x01#8, 0x08#8, 0xFC#8, 0xCB#8, 0xE2#8] ∧
  resetEnergyRequest 0xF8#8 = [0xF8#8, 0x42#8, 0xC2#8, 0x41#8] ∧
  calibrationRequest 0xF8#8 = [0xF8#8, 0x41#8, 0x37#8, 0x21#8, 0xB7#8, 0x78#8]

/-! ## Host access -/

/-- R140, R141: `frm.req` and `frm.rdreq`. -/
def Obligations.RequestRegisterWritesAndReads : Prop :=
  (∀ d : Word, decodeCmd (cmdWord true 0x12#8 d) = .frmReq (d.extractLsb' 8 8) (d.extractLsb' 0 8) ∧
    decodeCmd (cmdWord false 0x12#8 d) = .frmRdreq) ∧
  (∀ (s : State) (a f : Byte), exec (.frmReq a f) s =
    .next { s with reqAddr := a, reqFc := f, ready := true, rdata := none }) ∧
  (∀ s : State, exec .frmRdreq s = .next { s with ready := true, rdata := some (s.reqAddr ++ s.reqFc) }) ∧
  (∀ c : Config, classOf c 0x04#8 = .read)

/-- R25, R142, R196: every bit of FRM_STAT, with the codes of RESULT (R17) and of CLS (R19); while receiving
it is `OVR << 5`. -/
def Obligations.FrmStatReturnsEveryField : Prop :=
  (∀ d : Word, decodeCmd (cmdWord false 0x13#8 d) = .frmStat) ∧
  (Result.code .none = 0#3 ∧ Result.code .ok = 1#3 ∧ Result.code .truncated = 2#3 ∧
    Result.code .lengthMismatch = 3#3 ∧ Result.code .corruptFrame = 4#3 ∧
    Result.code .protocolError = 5#3) ∧
  (Cls.code .raw = 0#2 ∧ Cls.code .read = 1#2 ∧ Cls.code .fixed = 2#2) ∧
  (∀ s : State, s.Inv → s.done = false → exec .frmStat s =
    .next { s with ready := true, rdata := some (if s.ovr then 0x0020#16 else 0x0000#16) }) ∧
  ∀ s : State, ∃ w : Word, exec .frmStat s = .next { s with ready := true, rdata := some w } ∧
    w.getLsbD 0 = s.done ∧ w.extractLsb' 1 3 = s.result.code ∧ w.getLsbD 4 = s.crcOk ∧
    w.getLsbD 5 = s.ovr ∧ w.getLsbD 6 = s.stale ∧ w.getLsbD 7 = false ∧ w.getLsbD 8 = s.amatch ∧
    w.getLsbD 9 = s.fmatch ∧ w.extractLsb' 10 2 = s.cls.code ∧
    (w.getLsbD 12 = true ↔
      s.result = .truncated ∨ s.result = .lengthMismatch ∨ s.result = .corruptFrame) ∧
    w.extractLsb' 13 3 = 0#3

/-- R143, R152: `frm.len` and `sys.stat`; that LEN fits the 16 bits of FRM_LEN rests on log entry 5. -/
def Obligations.LenAndSysStatReturnTheirElements : Prop :=
  (∀ d : Word, decodeCmd (cmdWord false 0x14#8 d) = .frmLen ∧
    decodeCmd (cmdWord false 0x7F#8 d) = .sysStat) ∧
  (∀ s : State, exec .frmLen s = .next { s with ready := true, rdata := some (BitVec.ofNat 16 s.len) }) ∧
  (∀ s : State, exec .sysStat s =
    .next { s with ready := true, rdata := some (if s.ill then 0x0001#16 else 0x0000#16) }) ∧
  (∀ s : State, s.Inv → (BitVec.ofNat 16 s.len).toNat = s.len ∧ s.len < 2 ^ s.cfg.lenW) ∧
  State.reset.cfg.lenW = 9

/-- R112, R144: `frm.remain`, class by class, from the live REQ_FC, LEN and the header bytes. -/
def Obligations.FrmRemainCountsMissingBytes : Prop :=
  (∀ d : Word, decodeCmd (cmdWord false 0x18#8 d) = .frmRemain) ∧
  ∀ s : State, 3 ≤ s.cfg.frameMax → ∃ t : Nat,
    exec .frmRemain s = .next { s with
      ready := true, rdata := some (BitVec.ofNat 16 (if s.len < t then t - s.len else 0)) } ∧
    (classOf s.cfg s.reqFc = .raw → t = s.len) ∧
    (classOf s.cfg s.reqFc ≠ .raw → s.len < 3 → t = 3) ∧
    (classOf s.cfg s.reqFc ≠ .raw → 3 ≤ s.len → s.fbByte 1 &&& 0x80#8 = 0x80#8 → t = 5) ∧
    (classOf s.cfg s.reqFc = .read → 3 ≤ s.len → s.fbByte 1 &&& 0x80#8 ≠ 0x80#8 →
      t = 5 + (s.fbByte 2).toNat) ∧
    (∀ l, classOf s.cfg s.reqFc = .fixed l → 3 ≤ s.len → s.fbByte 1 &&& 0x80#8 ≠ 0x80#8 → t = l)

/-- R155: right after a `frm.end` whose frame is trusted, FRM_REMAIN is 0 and FRM_RXCRC is 0. -/
def Obligations.NothingRemainsOfATrustedFrame : Prop :=
  ∀ s t : State, s.Inv → s.done = false → exec .frmEnd s = .next t → trusted t = true →
    exec .frmRemain t = .next { t with ready := true, rdata := some 0x0000#16 } ∧
    exec .frmRxcrc t = .next { t with ready := true, rdata := some 0x0000#16 }

/-- R145: `frm.rxcrc`, and that on a closed frame of at least 2 bytes without overflow it is 0 exactly
when CRC_OK is 1. -/
def Obligations.RxcrcIsZeroExactlyWhenCrcOk : Prop :=
  (∀ d : Word, decodeCmd (cmdWord false 0x19#8 d) = .frmRxcrc) ∧
  (∀ s : State, exec .frmRxcrc s = .next { s with ready := true, rdata := some s.rxcrc }) ∧
  (∀ s : State, s.Inv → s.done = true → 2 ≤ s.len → s.ovr = false →
    (s.rxcrc = 0x0000#16 ↔ s.crcOk = true))

/-- R146: the gate: its condition, the four reads that return 0 when it is shut, and what holds of a
reachable state in which it is open. -/
def Obligations.GateShutsUntrustedFrames : Prop :=
  (∀ s : State, trusted s = true ↔
    s.done = true ∧ s.cls ≠ .raw ∧ (s.result = .ok ∨ s.result = .protocolError)) ∧
  (∀ s : State, trusted s = false →
    exec .frmHdr s = .next { s with ready := true, rdata := some 0x0000#16 } ∧
    exec .frmInfo s = .next { s with ready := true, rdata := some 0x0000#16 } ∧
    exec .frmExc s = .next { s with ready := true, rdata := some 0x0000#16 } ∧
    ∀ i, exec (.frmReg i) s = .next { s with ready := true, rdata := some 0x0000#16 }) ∧
  (∀ s : State, s.Inv → trusted s = true → s.crcOk = true ∧ s.ovr = false ∧ 4 ≤ s.len)

/-- R147: `frm.hdr` of a trusted frame. -/
def Obligations.FrmHdrReturnsTheHeader : Prop :=
  (∀ d : Word, decodeCmd (cmdWord false 0x15#8 d) = .frmHdr) ∧
  (∀ s : State, 2 ≤ s.cfg.frameMax → exec .frmHdr s = .next { s with
    ready := true, rdata := some (if trusted s then s.fbByte 0 ++ s.fbByte 1 else 0x0000#16) })

/-- R148: `frm.info`: NREG and BC by class, and the bound on NREG, which needs fixed replies of at most 259
bytes; that FRM_INFO shows the low seven bits of a larger NREG is log entry 9. -/
def Obligations.FrmInfoReturnsNregAndBc : Prop :=
  (∀ s : State, 3 ≤ s.cfg.frameMax → ∀ nreg bc : Nat,
    (trusted s = true ∧ s.result = .ok ∧ s.cls = .read ∧ nreg = (s.fbByte 2).toNat / 2 ∧
      bc = (s.fbByte 2).toNat) ∨
    (trusted s = true ∧ s.result = .ok ∧ s.cls = .fixed ∧ nreg = (s.len - 4) / 2 ∧ bc = 0) ∨
    (¬ (trusted s = true ∧ s.result = .ok) ∧ nreg = 0 ∧ bc = 0) →
    exec .frmInfo s = .next { s with
      ready := true, rdata := some (BitVec.ofNat 16 (256 * (nreg % 128) + bc)) }) ∧
  (∀ s : State, s.Inv → s.cfg.lenWriteReply ≤ 259 → s.cfg.lenCalibReply ≤ 259 →
    s.cfg.lenResetReply ≤ 259 → trusted s = true → s.result = .ok →
    (s.fbByte 2).toNat / 2 ≤ 127 ∧ (s.cls = .fixed → (s.len - 4) / 2 ≤ 127))

/-- R149, R78: `frm.exc`. -/
def Obligations.FrmExcReturnsCodeAndClass : Prop :=
  (∀ d : Word, decodeCmd (cmdWord false 0x17#8 d) = .frmExc) ∧
  (∀ s : State, 3 ≤ s.cfg.frameMax → trusted s = true → s.result = .protocolError →
    ∀ e : Byte, s.fbByte 2 = e → exec .frmExc s = .next { s with
      ready := true, rdata := some (0#5 ++
        (if e = 1#8 then 1#3 else if e = 2#8 then 2#3 else if e = 3#8 then 3#3
          else if e = 4#8 then 4#3 else 7#3) ++ e) }) ∧
  (∀ s : State, ¬ (trusted s = true ∧ s.result = .protocolError) →
    exec .frmExc s = .next { s with ready := true, rdata := some 0x0000#16 })

/-- R150: `frm.reg i`: the body word, the words out of range, that the CRC bytes are never data, and that
index 127 returns 0 where fixed replies have at most 259 bytes. In class FIXED with a longer reply index 127
returns a body word, against that sentence of R150: there the statement rests on log entry 9 (DEDUCED). -/
def Obligations.FrmRegReturnsTheBodyWord : Prop :=
  (∀ (s : State) (i : BitVec 7), s.Inv → trusted s = true → s.result = .ok → s.cls = .read →
    (i.toNat < (s.fbByte 2).toNat / 2 →
      exec (.frmReg i) s = .next { s with
        ready := true, rdata := some (s.fbByte (3 + 2 * i.toNat) ++ s.fbByte (3 + 2 * i.toNat + 1)) } ∧
      3 + 2 * i.toNat + 1 < s.len - 2) ∧
    ((s.fbByte 2).toNat / 2 ≤ i.toNat →
      exec (.frmReg i) s = .next { s with ready := true, rdata := some 0x0000#16 })) ∧
  (∀ (s : State) (i : BitVec 7), s.Inv → trusted s = true → s.result = .ok → s.cls = .fixed →
    (i.toNat < (s.len - 4) / 2 →
      exec (.frmReg i) s = .next { s with
        ready := true, rdata := some (s.fbByte (2 + 2 * i.toNat) ++ s.fbByte (2 + 2 * i.toNat + 1)) } ∧
      2 + 2 * i.toNat + 1 < s.len - 2) ∧
    ((s.len - 4) / 2 ≤ i.toNat →
      exec (.frmReg i) s = .next { s with ready := true, rdata := some 0x0000#16 })) ∧
  (∀ (s : State) (i : BitVec 7), ¬ (trusted s = true ∧ s.result = .ok) →
    exec (.frmReg i) s = .next { s with ready := true, rdata := some 0x0000#16 }) ∧
  (∀ s : State, s.Inv → s.cfg.lenWriteReply ≤ 259 → s.cfg.lenCalibReply ≤ 259 →
    s.cfg.lenResetReply ≤ 259 →
    exec (.frmReg 127#7) s = .next { s with ready := true, rdata := some 0x0000#16 })
end

