-- ==== Sys2Proof/Laws/Crc.lean ====
section
/-! SUPPORT. The small lemmas of the CRC functions and of the layouts built on them. -/

namespace Sys2Proof.Machine

@[simp] theorem crcFold_nil (c : Word) : crcFold c [] = c := rfl

@[simp] theorem crcFold_cons (c : Word) (b : Byte) (s : List Byte) :
    crcFold c (b :: s) = crcFold (crcByte c b) s := rfl

@[simp] theorem crc16_nil : crc16 [] = 0xFFFF#16 := rfl

/-- `crc_byte` depends on the register and the byte only through their XOR. -/
theorem crcByte_eq_shifts (c : Word) (b : Byte) : crcByte c b = crcShifts 8 (c ^^^ zext16 b) := rfl

@[simp] theorem wireBytes_length (c : Word) : (wireBytes c).length = 2 := rfl

@[simp] theorem withCrc_length (body : List Byte) : (withCrc body).length = body.length + 2 := by
  simp [withCrc]

@[simp] theorem beBytes_length (w : Word) : (beBytes w).length = 2 := rfl

theorem validate_short {f : List Byte} (h : f.length < 2) : validate f = false := if_pos h

theorem validate_eq_true_iff (f : List Byte) :
    validate f = true ↔ 2 ≤ f.length ∧ f.drop (f.length - 2) = wireBytes (crc16 (f.take (f.length - 2))) := by
  unfold validate
  split
  · next h => exact ⟨fun h' => (Bool.noConfusion h'), fun h' => absurd h'.1 (by omega)⟩
  · next h => simp; omega

/-- A word is its two bytes, in either wire order. -/
theorem beWord_high_low (w : Word) : beWord (highByte w) (lowByte w) = w := by
  apply BitVec.eq_of_getLsbD_eq
  intro i hi
  simp only [beWord, highByte, lowByte, BitVec.getLsbD_append, BitVec.getLsbD_extractLsb']
  by_cases h : i < 8
  · simp [h]
  · simp [h, show i - 8 < 8 by omega, show 8 + (i - 8) = i by omega]

@[simp] theorem highByte_beWord (a b : Byte) : highByte (beWord a b) = a := by
  apply BitVec.eq_of_getLsbD_eq
  intro i hi
  simp only [beWord, highByte, BitVec.getLsbD_append, BitVec.getLsbD_extractLsb']
  simp [hi]

@[simp] theorem lowByte_beWord (a b : Byte) : lowByte (beWord a b) = b := by
  apply BitVec.eq_of_getLsbD_eq
  intro i hi
  simp only [beWord, lowByte, BitVec.getLsbD_append, BitVec.getLsbD_extractLsb']
  simp [hi]

end Sys2Proof.Machine
end

