-- ==== Sys2Proof/Laws/Decode.lean ====
section
/-! SUPPORT. The fields of a command word, so that no proof takes the concatenation apart again. -/

namespace Sys2Proof

@[simp] theorem cmdWr_cmdWord (wr : Bool) (a : Byte) (d : Word) : cmdWr (cmdWord wr a d) = wr := by
  simp only [cmdWr, cmdWord, BitVec.getLsbD_append]
  simp

@[simp] theorem cmdAddr_cmdWord (wr : Bool) (a : Byte) (d : Word) : cmdAddr (cmdWord wr a d) = a := by
  apply BitVec.eq_of_getLsbD_eq
  intro i hi
  simp only [cmdAddr, cmdWord, BitVec.getLsbD_extractLsb', BitVec.getLsbD_append]
  simp [hi]

@[simp] theorem cmdData_cmdWord (wr : Bool) (a : Byte) (d : Word) : cmdData (cmdWord wr a d) = d := by
  apply BitVec.eq_of_getLsbD_eq
  intro i hi
  simp only [cmdData, cmdWord, BitVec.getLsbD_extractLsb', BitVec.getLsbD_append]
  simp [hi]

/-- A command word is its three fields. -/
@[simp] theorem cmdWord_fields (w : CmdWord) : cmdWord (cmdWr w) (cmdAddr w) (cmdData w) = w := by
  apply BitVec.eq_of_getLsbD_eq
  intro i hi
  simp only [cmdWord, cmdWr, cmdAddr, cmdData, BitVec.getLsbD_append, BitVec.getLsbD_extractLsb']
  by_cases h16 : i < 16
  · simp [h16]
  · by_cases h24 : i < 24
    · simp [h16, show i - 16 < 8 by omega, show 16 + (i - 16) = i by omega]
    · have hi' : i = 24 := by omega
      subst hi'
      simp

/-- The decoder reads the three fields and nothing else (R60, R81). -/
theorem decodeCmd_cmdWord (wr : Bool) (a : Byte) (d : Word) :
    decodeCmd (cmdWord wr a d) = if wr then decodeWrite a d else decodeRead a d := by
  simp [decodeCmd]

@[simp] theorem decodeCmd_write (a : Byte) (d : Word) : decodeCmd (cmdWord true a d) = decodeWrite a d := by
  simp [decodeCmd]

@[simp] theorem decodeCmd_read (a : Byte) (d : Word) : decodeCmd (cmdWord false a d) = decodeRead a d := by
  simp [decodeCmd]

@[simp] theorem lowByte_append (a b : Byte) : (a ++ b : Word).extractLsb' 0 8 = b := by
  apply BitVec.eq_of_getLsbD_eq
  intro i hi
  simp only [BitVec.getLsbD_extractLsb', BitVec.getLsbD_append]
  simp [hi]

@[simp] theorem highByte_append (a b : Byte) : (a ++ b : Word).extractLsb' 8 8 = a := by
  apply BitVec.eq_of_getLsbD_eq
  intro i hi
  simp only [BitVec.getLsbD_extractLsb', BitVec.getLsbD_append]
  simp [hi]

@[simp] theorem index_append (i : BitVec 7) : (1#1 ++ i : Byte).extractLsb' 0 7 = i := by
  apply BitVec.eq_of_getLsbD_eq
  intro k hk
  simp only [BitVec.getLsbD_extractLsb', BitVec.getLsbD_append]
  simp [hk]

@[simp] theorem flag_append (i : BitVec 7) : (1#1 ++ i : Byte).getLsbD 7 = true := by
  simp only [BitVec.getLsbD_append]
  simp

/-- A byte whose bit 7 is set is that bit and its low seven bits (R65). -/
theorem flag_index (b : Byte) (h : b.getLsbD 7 = true) : (1#1 ++ b.extractLsb' 0 7 : Byte) = b := by
  apply BitVec.eq_of_getLsbD_eq
  intro k hk
  simp only [BitVec.getLsbD_append, BitVec.getLsbD_extractLsb']
  by_cases h7 : k < 7
  · simp [h7]
  · have : k = 7 := by omega
    subst this
    simp [h]

/-- A row of format CMD25 (R61). -/
def Instr.isCommand : Instr → Bool
  | .crcInit | .crcUpd _ | .crcRd | .crcRdlo | .crcRdhi => true
  | .frmStart | .frmEnd | .frmPush _ | .frmReq _ _ | .frmRdreq => true
  | .frmStat | .frmLen | .frmHdr | .frmInfo | .frmExc => true
  | .frmRemain | .frmRxcrc | .sysStat | .frmReg _ | .ill _ _ _ => true
  | .fcReadHolding | .fcReadInput | .fcWriteSingle => false
  | .fcCalibration | .fcResetEnergy | .fcOther _ | .fcErrorReply _ => false

/-- A command word decodes to a command row, never to a function-code row. -/
theorem decodeCmd_isCommand (w : CmdWord) : (decodeCmd w).isCommand = true := by
  simp only [decodeCmd, decodeWrite, decodeRead, apply_ite Instr.isCommand]
  simp only [Instr.isCommand, ite_self]

end Sys2Proof
end

