-- ==== Sys2Proof/Laws/State.lean ====
section
/-! SUPPORT. One lemma per field per update, each true by rfl, so that no proof unfolds a record update. -/

namespace Sys2Proof.Machine

section
variable (s : State)
@[simp] theorem State.ack_cfg : s.ack.cfg = s.cfg := rfl
@[simp] theorem State.ack_crc : s.ack.crc = s.crc := rfl
@[simp] theorem State.ack_reqAddr : s.ack.reqAddr = s.reqAddr := rfl
@[simp] theorem State.ack_reqFc : s.ack.reqFc = s.reqFc := rfl
@[simp] theorem State.ack_fb : s.ack.fb = s.fb := rfl
@[simp] theorem State.ack_len : s.ack.len = s.len := rfl
@[simp] theorem State.ack_rxcrc : s.ack.rxcrc = s.rxcrc := rfl
@[simp] theorem State.ack_done : s.ack.done = s.done := rfl
@[simp] theorem State.ack_ovr : s.ack.ovr = s.ovr := rfl
@[simp] theorem State.ack_stale : s.ack.stale = s.stale := rfl
@[simp] theorem State.ack_result : s.ack.result = s.result := rfl
@[simp] theorem State.ack_crcOk : s.ack.crcOk = s.crcOk := rfl
@[simp] theorem State.ack_cls : s.ack.cls = s.cls := rfl
@[simp] theorem State.ack_amatch : s.ack.amatch = s.amatch := rfl
@[simp] theorem State.ack_fmatch : s.ack.fmatch = s.fmatch := rfl
@[simp] theorem State.ack_ill : s.ack.ill = s.ill := rfl
@[simp] theorem State.ack_port : s.ack.port = s.port := rfl
@[simp] theorem State.ack_ready : s.ack.ready = true := rfl
@[simp] theorem State.ack_rdata : s.ack.rdata = none := rfl
end

section
variable (s : State) (v : Word)
@[simp] theorem State.answer_cfg : (s.answer v).cfg = s.cfg := rfl
@[simp] theorem State.answer_crc : (s.answer v).crc = s.crc := rfl
@[simp] theorem State.answer_reqAddr : (s.answer v).reqAddr = s.reqAddr := rfl
@[simp] theorem State.answer_reqFc : (s.answer v).reqFc = s.reqFc := rfl
@[simp] theorem State.answer_fb : (s.answer v).fb = s.fb := rfl
@[simp] theorem State.answer_len : (s.answer v).len = s.len := rfl
@[simp] theorem State.answer_rxcrc : (s.answer v).rxcrc = s.rxcrc := rfl
@[simp] theorem State.answer_done : (s.answer v).done = s.done := rfl
@[simp] theorem State.answer_ovr : (s.answer v).ovr = s.ovr := rfl
@[simp] theorem State.answer_stale : (s.answer v).stale = s.stale := rfl
@[simp] theorem State.answer_result : (s.answer v).result = s.result := rfl
@[simp] theorem State.answer_crcOk : (s.answer v).crcOk = s.crcOk := rfl
@[simp] theorem State.answer_cls : (s.answer v).cls = s.cls := rfl
@[simp] theorem State.answer_amatch : (s.answer v).amatch = s.amatch := rfl
@[simp] theorem State.answer_fmatch : (s.answer v).fmatch = s.fmatch := rfl
@[simp] theorem State.answer_ill : (s.answer v).ill = s.ill := rfl
@[simp] theorem State.answer_port : (s.answer v).port = s.port := rfl
@[simp] theorem State.answer_ready : (s.answer v).ready = true := rfl
@[simp] theorem State.answer_rdata : (s.answer v).rdata = some v := rfl
end

section
variable (s : State)
@[simp] theorem State.idle_cfg : s.idle.cfg = s.cfg := rfl
@[simp] theorem State.idle_crc : s.idle.crc = s.crc := rfl
@[simp] theorem State.idle_reqAddr : s.idle.reqAddr = s.reqAddr := rfl
@[simp] theorem State.idle_reqFc : s.idle.reqFc = s.reqFc := rfl
@[simp] theorem State.idle_fb : s.idle.fb = s.fb := rfl
@[simp] theorem State.idle_len : s.idle.len = s.len := rfl
@[simp] theorem State.idle_rxcrc : s.idle.rxcrc = s.rxcrc := rfl
@[simp] theorem State.idle_done : s.idle.done = s.done := rfl
@[simp] theorem State.idle_ovr : s.idle.ovr = s.ovr := rfl
@[simp] theorem State.idle_stale : s.idle.stale = s.stale := rfl
@[simp] theorem State.idle_result : s.idle.result = s.result := rfl
@[simp] theorem State.idle_crcOk : s.idle.crcOk = s.crcOk := rfl
@[simp] theorem State.idle_cls : s.idle.cls = s.cls := rfl
@[simp] theorem State.idle_amatch : s.idle.amatch = s.amatch := rfl
@[simp] theorem State.idle_fmatch : s.idle.fmatch = s.fmatch := rfl
@[simp] theorem State.idle_ill : s.idle.ill = s.ill := rfl
@[simp] theorem State.idle_port : s.idle.port = s.port := rfl
@[simp] theorem State.idle_ready : s.idle.ready = false := rfl
@[simp] theorem State.idle_rdata : s.idle.rdata = none := rfl
end

section
variable (s : State) (c : Word)
@[simp] theorem State.setCrc_cfg : (s.setCrc c).cfg = s.cfg := rfl
@[simp] theorem State.setCrc_crc : (s.setCrc c).crc = c := rfl
@[simp] theorem State.setCrc_reqAddr : (s.setCrc c).reqAddr = s.reqAddr := rfl
@[simp] theorem State.setCrc_reqFc : (s.setCrc c).reqFc = s.reqFc := rfl
@[simp] theorem State.setCrc_fb : (s.setCrc c).fb = s.fb := rfl
@[simp] theorem State.setCrc_len : (s.setCrc c).len = s.len := rfl
@[simp] theorem State.setCrc_rxcrc : (s.setCrc c).rxcrc = s.rxcrc := rfl
@[simp] theorem State.setCrc_done : (s.setCrc c).done = s.done := rfl
@[simp] theorem State.setCrc_ovr : (s.setCrc c).ovr = s.ovr := rfl
@[simp] theorem State.setCrc_stale : (s.setCrc c).stale = s.stale := rfl
@[simp] theorem State.setCrc_result : (s.setCrc c).result = s.result := rfl
@[simp] theorem State.setCrc_crcOk : (s.setCrc c).crcOk = s.crcOk := rfl
@[simp] theorem State.setCrc_cls : (s.setCrc c).cls = s.cls := rfl
@[simp] theorem State.setCrc_amatch : (s.setCrc c).amatch = s.amatch := rfl
@[simp] theorem State.setCrc_fmatch : (s.setCrc c).fmatch = s.fmatch := rfl
@[simp] theorem State.setCrc_ill : (s.setCrc c).ill = s.ill := rfl
@[simp] theorem State.setCrc_port : (s.setCrc c).port = s.port := rfl
@[simp] theorem State.setCrc_ready : (s.setCrc c).ready = s.ready := rfl
@[simp] theorem State.setCrc_rdata : (s.setCrc c).rdata = s.rdata := rfl
end

section
variable (s : State) (a f : Byte)
@[simp] theorem State.setReq_cfg : (s.setReq a f).cfg = s.cfg := rfl
@[simp] theorem State.setReq_crc : (s.setReq a f).crc = s.crc := rfl
@[simp] theorem State.setReq_reqAddr : (s.setReq a f).reqAddr = a := rfl
@[simp] theorem State.setReq_reqFc : (s.setReq a f).reqFc = f := rfl
@[simp] theorem State.setReq_fb : (s.setReq a f).fb = s.fb := rfl
@[simp] theorem State.setReq_len : (s.setReq a f).len = s.len := rfl
@[simp] theorem State.setReq_rxcrc : (s.setReq a f).rxcrc = s.rxcrc := rfl
@[simp] theorem State.setReq_done : (s.setReq a f).done = s.done := rfl
@[simp] theorem State.setReq_ovr : (s.setReq a f).ovr = s.ovr := rfl
@[simp] theorem State.setReq_stale : (s.setReq a f).stale = s.stale := rfl
@[simp] theorem State.setReq_result : (s.setReq a f).result = s.result := rfl
@[simp] theorem State.setReq_crcOk : (s.setReq a f).crcOk = s.crcOk := rfl
@[simp] theorem State.setReq_cls : (s.setReq a f).cls = s.cls := rfl
@[simp] theorem State.setReq_amatch : (s.setReq a f).amatch = s.amatch := rfl
@[simp] theorem State.setReq_fmatch : (s.setReq a f).fmatch = s.fmatch := rfl
@[simp] theorem State.setReq_ill : (s.setReq a f).ill = s.ill := rfl
@[simp] theorem State.setReq_port : (s.setReq a f).port = s.port := rfl
@[simp] theorem State.setReq_ready : (s.setReq a f).ready = s.ready := rfl
@[simp] theorem State.setReq_rdata : (s.setReq a f).rdata = s.rdata := rfl
end

section
variable (s : State)
@[simp] theorem State.setIll_cfg : s.setIll.cfg = s.cfg := rfl
@[simp] theorem State.setIll_crc : s.setIll.crc = s.crc := rfl
@[simp] theorem State.setIll_reqAddr : s.setIll.reqAddr = s.reqAddr := rfl
@[simp] theorem State.setIll_reqFc : s.setIll.reqFc = s.reqFc := rfl
@[simp] theorem State.setIll_fb : s.setIll.fb = s.fb := rfl
@[simp] theorem State.setIll_len : s.setIll.len = s.len := rfl
@[simp] theorem State.setIll_rxcrc : s.setIll.rxcrc = s.rxcrc := rfl
@[simp] theorem State.setIll_done : s.setIll.done = s.done := rfl
@[simp] theorem State.setIll_ovr : s.setIll.ovr = s.ovr := rfl
@[simp] theorem State.setIll_stale : s.setIll.stale = s.stale := rfl
@[simp] theorem State.setIll_result : s.setIll.result = s.result := rfl
@[simp] theorem State.setIll_crcOk : s.setIll.crcOk = s.crcOk := rfl
@[simp] theorem State.setIll_cls : s.setIll.cls = s.cls := rfl
@[simp] theorem State.setIll_amatch : s.setIll.amatch = s.amatch := rfl
@[simp] theorem State.setIll_fmatch : s.setIll.fmatch = s.fmatch := rfl
@[simp] theorem State.setIll_ill : s.setIll.ill = true := rfl
@[simp] theorem State.setIll_port : s.setIll.port = s.port := rfl
@[simp] theorem State.setIll_ready : s.setIll.ready = s.ready := rfl
@[simp] theorem State.setIll_rdata : s.setIll.rdata = s.rdata := rfl
end

section
variable (s : State)
@[simp] theorem State.setOvr_cfg : s.setOvr.cfg = s.cfg := rfl
@[simp] theorem State.setOvr_crc : s.setOvr.crc = s.crc := rfl
@[simp] theorem State.setOvr_reqAddr : s.setOvr.reqAddr = s.reqAddr := rfl
@[simp] theorem State.setOvr_reqFc : s.setOvr.reqFc = s.reqFc := rfl
@[simp] theorem State.setOvr_fb : s.setOvr.fb = s.fb := rfl
@[simp] theorem State.setOvr_len : s.setOvr.len = s.len := rfl
@[simp] theorem State.setOvr_rxcrc : s.setOvr.rxcrc = s.rxcrc := rfl
@[simp] theorem State.setOvr_done : s.setOvr.done = s.done := rfl
@[simp] theorem State.setOvr_ovr : s.setOvr.ovr = true := rfl
@[simp] theorem State.setOvr_stale : s.setOvr.stale = s.stale := rfl
@[simp] theorem State.setOvr_result : s.setOvr.result = s.result := rfl
@[simp] theorem State.setOvr_crcOk : s.setOvr.crcOk = s.crcOk := rfl
@[simp] theorem State.setOvr_cls : s.setOvr.cls = s.cls := rfl
@[simp] theorem State.setOvr_amatch : s.setOvr.amatch = s.amatch := rfl
@[simp] theorem State.setOvr_fmatch : s.setOvr.fmatch = s.fmatch := rfl
@[simp] theorem State.setOvr_ill : s.setOvr.ill = s.ill := rfl
@[simp] theorem State.setOvr_port : s.setOvr.port = s.port := rfl
@[simp] theorem State.setOvr_ready : s.setOvr.ready = s.ready := rfl
@[simp] theorem State.setOvr_rdata : s.setOvr.rdata = s.rdata := rfl
end

section
variable (s : State)
@[simp] theorem State.setStale_cfg : s.setStale.cfg = s.cfg := rfl
@[simp] theorem State.setStale_crc : s.setStale.crc = s.crc := rfl
@[simp] theorem State.setStale_reqAddr : s.setStale.reqAddr = s.reqAddr := rfl
@[simp] theorem State.setStale_reqFc : s.setStale.reqFc = s.reqFc := rfl
@[simp] theorem State.setStale_fb : s.setStale.fb = s.fb := rfl
@[simp] theorem State.setStale_len : s.setStale.len = s.len := rfl
@[simp] theorem State.setStale_rxcrc : s.setStale.rxcrc = s.rxcrc := rfl
@[simp] theorem State.setStale_done : s.setStale.done = s.done := rfl
@[simp] theorem State.setStale_ovr : s.setStale.ovr = s.ovr := rfl
@[simp] theorem State.setStale_stale : s.setStale.stale = true := rfl
@[simp] theorem State.setStale_result : s.setStale.result = s.result := rfl
@[simp] theorem State.setStale_crcOk : s.setStale.crcOk = s.crcOk := rfl
@[simp] theorem State.setStale_cls : s.setStale.cls = s.cls := rfl
@[simp] theorem State.setStale_amatch : s.setStale.amatch = s.amatch := rfl
@[simp] theorem State.setStale_fmatch : s.setStale.fmatch = s.fmatch := rfl
@[simp] theorem State.setStale_ill : s.setStale.ill = s.ill := rfl
@[simp] theorem State.setStale_port : s.setStale.port = s.port := rfl
@[simp] theorem State.setStale_ready : s.setStale.ready = s.ready := rfl
@[simp] theorem State.setStale_rdata : s.setStale.rdata = s.rdata := rfl
end

section
variable (s : State) (b : Byte)
@[simp] theorem State.store_cfg : (s.store b).cfg = s.cfg := rfl
@[simp] theorem State.store_crc : (s.store b).crc = s.crc := rfl
@[simp] theorem State.store_reqAddr : (s.store b).reqAddr = s.reqAddr := rfl
@[simp] theorem State.store_reqFc : (s.store b).reqFc = s.reqFc := rfl
@[simp] theorem State.store_fb : (s.store b).fb = Memory.write s.fb s.len b := rfl
@[simp] theorem State.store_len : (s.store b).len = s.len + 1 := rfl
@[simp] theorem State.store_rxcrc : (s.store b).rxcrc = crcByte s.rxcrc b := rfl
@[simp] theorem State.store_done : (s.store b).done = s.done := rfl
@[simp] theorem State.store_ovr : (s.store b).ovr = s.ovr := rfl
@[simp] theorem State.store_stale : (s.store b).stale = s.stale := rfl
@[simp] theorem State.store_result : (s.store b).result = s.result := rfl
@[simp] theorem State.store_crcOk : (s.store b).crcOk = s.crcOk := rfl
@[simp] theorem State.store_cls : (s.store b).cls = s.cls := rfl
@[simp] theorem State.store_amatch : (s.store b).amatch = s.amatch := rfl
@[simp] theorem State.store_fmatch : (s.store b).fmatch = s.fmatch := rfl
@[simp] theorem State.store_ill : (s.store b).ill = s.ill := rfl
@[simp] theorem State.store_port : (s.store b).port = s.port := rfl
@[simp] theorem State.store_ready : (s.store b).ready = s.ready := rfl
@[simp] theorem State.store_rdata : (s.store b).rdata = s.rdata := rfl
end

section
variable (s : State)
@[simp] theorem State.clearFrame_cfg : s.clearFrame.cfg = s.cfg := rfl
@[simp] theorem State.clearFrame_crc : s.clearFrame.crc = s.crc := rfl
@[simp] theorem State.clearFrame_reqAddr : s.clearFrame.reqAddr = s.reqAddr := rfl
@[simp] theorem State.clearFrame_reqFc : s.clearFrame.reqFc = s.reqFc := rfl
@[simp] theorem State.clearFrame_fb : s.clearFrame.fb = s.fb := rfl
@[simp] theorem State.clearFrame_len : s.clearFrame.len = 0 := rfl
@[simp] theorem State.clearFrame_rxcrc : s.clearFrame.rxcrc = crcInit := rfl
@[simp] theorem State.clearFrame_done : s.clearFrame.done = false := rfl
@[simp] theorem State.clearFrame_ovr : s.clearFrame.ovr = false := rfl
@[simp] theorem State.clearFrame_stale : s.clearFrame.stale = false := rfl
@[simp] theorem State.clearFrame_result : s.clearFrame.result = .none := rfl
@[simp] theorem State.clearFrame_crcOk : s.clearFrame.crcOk = false := rfl
@[simp] theorem State.clearFrame_cls : s.clearFrame.cls = .raw := rfl
@[simp] theorem State.clearFrame_amatch : s.clearFrame.amatch = false := rfl
@[simp] theorem State.clearFrame_fmatch : s.clearFrame.fmatch = false := rfl
@[simp] theorem State.clearFrame_ill : s.clearFrame.ill = s.ill := rfl
@[simp] theorem State.clearFrame_port : s.clearFrame.port = s.port := rfl
@[simp] theorem State.clearFrame_ready : s.clearFrame.ready = s.ready := rfl
@[simp] theorem State.clearFrame_rdata : s.clearFrame.rdata = s.rdata := rfl
end

section
variable (s : State) (k : Layout) (fc : Byte) (f0 f1 : Option Byte) (r : Result) (v : Bool)
@[simp] theorem State.latch_cfg : (s.latch k fc f0 f1 r v).cfg = s.cfg := rfl
@[simp] theorem State.latch_crc : (s.latch k fc f0 f1 r v).crc = s.crc := rfl
@[simp] theorem State.latch_reqAddr : (s.latch k fc f0 f1 r v).reqAddr = s.reqAddr := rfl
@[simp] theorem State.latch_reqFc : (s.latch k fc f0 f1 r v).reqFc = s.reqFc := rfl
@[simp] theorem State.latch_fb : (s.latch k fc f0 f1 r v).fb = s.fb := rfl
@[simp] theorem State.latch_len : (s.latch k fc f0 f1 r v).len = s.len := rfl
@[simp] theorem State.latch_rxcrc : (s.latch k fc f0 f1 r v).rxcrc = s.rxcrc := rfl
@[simp] theorem State.latch_done : (s.latch k fc f0 f1 r v).done = true := rfl
@[simp] theorem State.latch_ovr : (s.latch k fc f0 f1 r v).ovr = s.ovr := rfl
@[simp] theorem State.latch_stale : (s.latch k fc f0 f1 r v).stale = s.stale := rfl
@[simp] theorem State.latch_result : (s.latch k fc f0 f1 r v).result = r := rfl
@[simp] theorem State.latch_crcOk : (s.latch k fc f0 f1 r v).crcOk = v := rfl
@[simp] theorem State.latch_cls : (s.latch k fc f0 f1 r v).cls = classOfLayout k := rfl
@[simp] theorem State.latch_amatch : (s.latch k fc f0 f1 r v).amatch = amatchOf (goodFrame k r) f0 s.reqAddr := rfl
@[simp] theorem State.latch_fmatch : (s.latch k fc f0 f1 r v).fmatch = fmatchOf (goodFrame k r) f1 fc := rfl
@[simp] theorem State.latch_ill : (s.latch k fc f0 f1 r v).ill = s.ill := rfl
@[simp] theorem State.latch_port : (s.latch k fc f0 f1 r v).port = s.port := rfl
@[simp] theorem State.latch_ready : (s.latch k fc f0 f1 r v).ready = s.ready := rfl
@[simp] theorem State.latch_rdata : (s.latch k fc f0 f1 r v).rdata = s.rdata := rfl
end

section
variable (s : State)
@[simp] theorem State.applyReset_cfg : s.applyReset.cfg = s.cfg := rfl
@[simp] theorem State.applyReset_crc : s.applyReset.crc = 0xFFFF#16 := rfl
@[simp] theorem State.applyReset_reqAddr : s.applyReset.reqAddr = 0x00#8 := rfl
@[simp] theorem State.applyReset_reqFc : s.applyReset.reqFc = 0x00#8 := rfl
@[simp] theorem State.applyReset_fb : s.applyReset.fb = s.fb := rfl
@[simp] theorem State.applyReset_len : s.applyReset.len = 0 := rfl
@[simp] theorem State.applyReset_rxcrc : s.applyReset.rxcrc = 0xFFFF#16 := rfl
@[simp] theorem State.applyReset_done : s.applyReset.done = false := rfl
@[simp] theorem State.applyReset_ovr : s.applyReset.ovr = false := rfl
@[simp] theorem State.applyReset_stale : s.applyReset.stale = false := rfl
@[simp] theorem State.applyReset_result : s.applyReset.result = .none := rfl
@[simp] theorem State.applyReset_crcOk : s.applyReset.crcOk = false := rfl
@[simp] theorem State.applyReset_cls : s.applyReset.cls = .raw := rfl
@[simp] theorem State.applyReset_amatch : s.applyReset.amatch = false := rfl
@[simp] theorem State.applyReset_fmatch : s.applyReset.fmatch = false := rfl
@[simp] theorem State.applyReset_ill : s.applyReset.ill = false := rfl
@[simp] theorem State.applyReset_port : s.applyReset.port = s.port := rfl
@[simp] theorem State.applyReset_ready : s.applyReset.ready = false := rfl
@[simp] theorem State.applyReset_rdata : s.applyReset.rdata = none := rfl
end

end Sys2Proof.Machine
end

