-- ==== Sys2Proof/Laws/Memory.lean ====
section
/-! SUPPORT. The frame buffer as a list of cells: read after write, canonical form, and the two kinds of
read of a state. -/

namespace Sys2Proof.Machine

theorem Memory.lookup_write_same (m : Memory) (a : Nat) (b : Byte) :
    Memory.lookup (Memory.write m a b) a = some b := by
  induction m with
  | nil => simp [Memory.write, Memory.lookup]
  | cons c m ih =>
    obtain ⟨k, v⟩ := c
    unfold Memory.write
    split
    · simp [Memory.lookup]
    · split
      · simp [Memory.lookup]
      · next h1 h2 => simp [Memory.lookup, Ne.symm h2, ih]

theorem Memory.lookup_write_other (m : Memory) (a x : Nat) (b : Byte) (hx : x ≠ a) :
    Memory.lookup (Memory.write m a b) x = Memory.lookup m x := by
  induction m with
  | nil => simp [Memory.write, Memory.lookup, Ne.symm hx]
  | cons c m ih =>
    obtain ⟨k, v⟩ := c
    unfold Memory.write
    split
    · simp [Memory.lookup, Ne.symm hx]
    · split
      · next h => subst h; simp [Memory.lookup, Ne.symm hx]
      · simp [Memory.lookup, ih]

@[simp] theorem Memory.byteAt_write_same (m : Memory) (a : Nat) (b : Byte) :
    Memory.byteAt (Memory.write m a b) a = b := by
  simp [Memory.byteAt, Memory.lookup_write_same]

theorem Memory.byteAt_write_other (m : Memory) (a x : Nat) (b : Byte) (hx : x ≠ a) :
    Memory.byteAt (Memory.write m a b) x = Memory.byteAt m x := by
  simp [Memory.byteAt, Memory.lookup_write_other m a x b hx]

/-- A written cell is the new one or an old one. -/
theorem Memory.mem_write {m : Memory} {a : Nat} {b : Byte} {c : Host.Cell}
    (h : c ∈ Memory.write m a b) : c = (a, b) ∨ c ∈ m := by
  induction m with
  | nil => simpa [Memory.write] using h
  | cons d m ih =>
    obtain ⟨k, v⟩ := d
    unfold Memory.write at h
    split at h
    · simpa using h
    · split at h
      · simp only [List.mem_cons] at h ⊢
        tauto
      · simp only [List.mem_cons] at h ⊢
        rcases h with h | h
        · exact .inr (.inl h)
        · exact (ih h).imp id .inr

/-- Every memory operation keeps the canonical form: there is one, the write. -/
theorem Memory.wf_write {m : Memory} (a : Nat) (b : Byte) (h : Memory.wf m) :
    Memory.wf (Memory.write m a b) := by
  induction m with
  | nil => simp [Memory.write]
  | cons c m ih =>
    obtain ⟨k, v⟩ := c
    have hk := List.pairwise_cons.mp h
    unfold Memory.write
    split
    · next hlt =>
      refine List.pairwise_cons.mpr ⟨fun d hd => ?_, h⟩
      rcases List.mem_cons.mp hd with rfl | hd
      · exact hlt
      · exact lt_trans hlt (hk.1 d hd)
    · split
      · next heq => subst heq; exact List.pairwise_cons.mpr ⟨hk.1, hk.2⟩
      · next h1 h2 =>
        refine List.pairwise_cons.mpr ⟨fun d hd => ?_, ih hk.2⟩
        rcases Memory.mem_write hd with rfl | hd
        · simp only; omega
        · exact hk.1 d hd

theorem Memory.wf_reset : Memory.wf State.reset.fb := List.Pairwise.nil

theorem Memory.lookup_eq_none {m : Memory} {a : Nat} (h : ∀ c ∈ m, a < c.1) : Memory.lookup m a = none := by
  induction m with
  | nil => rfl
  | cons c m ih =>
    obtain ⟨k, v⟩ := c
    have hk : k ≠ a := by have := h (k, v) (by simp); simp only at this; omega
    simp only [Memory.lookup, if_neg hk]
    exact ih fun d hd => h d (by simp [hd])

/-- Equal memories are equal data: two canonical memories that list the same bytes are one list. -/
theorem Memory.ext_of_wf {m n : Memory} (hm : Memory.wf m) (hn : Memory.wf n)
    (h : ∀ a, Memory.lookup m a = Memory.lookup n a) : m = n := by
  induction m generalizing n with
  | nil =>
    cases n with
    | nil => rfl
    | cons d n => have := h d.1; simp [Memory.lookup] at this
  | cons c m ih =>
    obtain ⟨k, v⟩ := c
    cases n with
    | nil => have := h k; simp [Memory.lookup] at this
    | cons d n =>
      obtain ⟨l, w⟩ := d
      have hm' := List.pairwise_cons.mp hm
      have hn' := List.pairwise_cons.mp hn
      have hkl : k = l := by
        rcases lt_trichotomy k l with hlt | heq | hgt
        · have h1 := h k
          simp only [Memory.lookup, if_true, if_neg (Nat.ne_of_gt hlt)] at h1
          rw [Memory.lookup_eq_none fun c hc => lt_trans hlt (hn'.1 c hc)] at h1
          cases h1
        · exact heq
        · have h1 := h l
          simp only [Memory.lookup, if_true, if_neg (Nat.ne_of_gt hgt)] at h1
          rw [Memory.lookup_eq_none fun c hc => lt_trans hgt (hm'.1 c hc)] at h1
          cases h1
      subst hkl
      have hvw : v = w := by have := h k; simpa [Memory.lookup] using this
      subst hvw
      refine congrArg _ (ih hm'.2 hn'.2 fun a => ?_)
      by_cases ha : k = a
      · subst ha
        rw [Memory.lookup_eq_none hm'.1, Memory.lookup_eq_none hn'.1]
      · have := h a
        simpa [Memory.lookup, ha] using this

/-! ## Reads of a state -/

theorem memRead_of_lt {s : State} {a : Nat} (h : a < s.cfg.frameMax) : memRead s a = .ok (s.fbByte a) :=
  if_pos h

theorem memRead_of_ge {s : State} {a : Nat} (h : s.cfg.frameMax ≤ a) :
    memRead s a = .error (.fbReadOutside a) :=
  if_neg (by omega)

theorem memRead_eq_ok {s : State} {a : Nat} {b : Byte} (h : memRead s a = .ok b) :
    a < s.cfg.frameMax ∧ b = s.fbByte a := by
  unfold memRead at h
  split at h <;> simp_all

theorem memRead2_of_lt {s : State} {a : Nat} (h : a + 1 < s.cfg.frameMax) :
    memRead2 s a = .ok (beWord (s.fbByte a) (s.fbByte (a + 1))) := by
  simp [memRead2, memRead_of_lt h, memRead_of_lt (Nat.lt_of_succ_lt h)]

theorem memRead2_eq_ok {s : State} {a : Nat} {w : Word} (h : memRead2 s a = .ok w) :
    a + 1 < s.cfg.frameMax ∧ w = beWord (s.fbByte a) (s.fbByte (a + 1)) := by
  by_cases ha : a + 1 < s.cfg.frameMax
  · rw [memRead2_of_lt ha] at h
    exact ⟨ha, (Except.ok.inj h).symm⟩
  · by_cases hb : a < s.cfg.frameMax
    · rw [memRead2, memRead_of_lt hb] at h
      simp [memRead_of_ge (Nat.le_of_not_lt ha)] at h
    · rw [memRead2, memRead_of_ge (Nat.le_of_not_lt hb)] at h
      cases h

@[simp] theorem State.frame_length (s : State) : s.frame.length = s.len := by simp [State.frame]

theorem State.frame_getElem? (s : State) (a : Nat) (h : a < s.len) : s.frame[a]? = some (s.fbByte a) := by
  simp [State.frame, h]

theorem readFrame_of_le {s : State} (h : s.len ≤ s.cfg.frameMax) : readFrame s = .ok s.frame := if_pos h

theorem readFrame_eq_ok {s : State} {f : List Byte} (h : readFrame s = .ok f) :
    s.len ≤ s.cfg.frameMax ∧ f = s.frame := by
  unfold readFrame at h
  split at h <;> simp_all

/-- The stored frame depends only on `LEN` and the bytes below it. -/
theorem State.frame_congr {s t : State} (hl : s.len = t.len) (hb : ∀ a, a < s.len → s.fbByte a = t.fbByte a) :
    s.frame = t.frame := by
  unfold State.frame
  rw [← hl]
  exact List.map_congr_left fun a ha => hb a (List.mem_range.mp ha)

/-- An accepted push appends its byte to the stored frame. -/
@[simp] theorem State.frame_store (s : State) (b : Byte) : (s.store b).frame = s.frame ++ [b] := by
  have hne : ∀ a ∈ List.range s.len, (s.store b).fbByte a = s.fbByte a := fun a ha =>
    Memory.byteAt_write_other _ _ _ _ (Nat.ne_of_lt (List.mem_range.mp ha))
  have hlast : (s.store b).fbByte s.len = b := Memory.byteAt_write_same _ _ _
  simp [State.frame, List.range_succ, hlast, List.map_congr_left hne]

end Sys2Proof.Machine
end

