-- ==== Sys2Proof/Laws/Ops.lean ====
section
/-! SUPPORT. What each shared operation can do, said once; later proofs cite these and unfold nothing. -/

namespace Sys2Proof.Machine

/-! ## Verdicts -/

/-- The verdict is never `NONE`: every input has one (R117). -/
theorem errorVerdict_ne_none (n : Nat) (v : Bool) : errorVerdict n v ≠ .none := by
  unfold errorVerdict
  split
  · simp
  · split <;> simp

/-- The two ways a header verdict passes (R117): step 5e and step 5. -/
theorem headerVerdict_passed {k : Layout} {f : List Byte} {ovr v : Bool}
    (h : passed (headerVerdict k f ovr v) = true) :
    ∃ f0 f1 f2 rest, f = f0 :: f1 :: f2 :: rest ∧ ovr = false ∧ v = true ∧
      ((errorFlag f1 = true ∧ f.length = 5 ∧ headerVerdict k f ovr v = .protocolError) ∨
       (errorFlag f1 = false ∧ lengthFits k f.length f2 = true ∧ headerVerdict k f ovr v = .ok)) := by
  match f with
  | [] => simp [headerVerdict, passed] at h
  | [_] => simp [headerVerdict, passed] at h
  | [_, _] => simp [headerVerdict, passed] at h
  | f0 :: f1 :: f2 :: rest =>
    refine ⟨f0, f1, f2, rest, rfl, ?_⟩
    revert h
    simp only [headerVerdict, errorVerdict, lenErrorReply]
    cases ovr <;> cases v <;> cases errorFlag f1 <;>
      by_cases hn : (f0 :: f1 :: f2 :: rest).length = 5 <;>
      by_cases hl : lengthFits k (f0 :: f1 :: f2 :: rest).length f2 = true <;>
      simp_all [passed]

/-- The layout of a class that reads headers. -/
theorem verdict_of_ne_raw {k : Layout} (hk : k ≠ .raw) (f : List Byte) (ovr v : Bool) :
    verdict k f ovr v = headerVerdict k f ovr v := by
  cases k with
  | raw => exact absurd rfl hk
  | read => rfl
  | fixed l => rfl

@[simp] theorem classOfLayout_eq_raw (k : Layout) : classOfLayout k = .raw ↔ k = .raw := by
  cases k <;> simp [classOfLayout]

@[simp] theorem classOfLayout_eq_read (k : Layout) : classOfLayout k = .read ↔ k = .read := by
  cases k <;> simp [classOfLayout]

@[simp] theorem classOfLayout_eq_fixed (k : Layout) : classOfLayout k = .fixed ↔ ∃ l, k = .fixed l := by
  cases k <;> simp [classOfLayout]

/-- A FIXED layout has one of the three parameter lengths (R111). -/
theorem classOf_fixed {c : Config} {fc : Byte} {l : Nat} (h : classOf c fc = .fixed l) :
    l = c.lenWriteReply ∨ l = c.lenCalibReply ∨ l = c.lenResetReply := by
  revert h
  unfold classOf
  split
  · simp
  · split
    · intro h; exact .inl (by simpa using h.symm)
    · split
      · intro h; exact .inr (.inl (by simpa using h.symm))
      · split
        · intro h; exact .inr (.inr (by simpa using h.symm))
        · simp

/-! ## Reading FB -/

/-- Answering a read changes no element of the state. -/
theorem answerRead_next {s t : State} {r : Except Fault Word} (h : answerRead s r = .next t) :
    ∃ v, r = .ok v ∧ t = s.answer v := by
  unfold answerRead at h
  split at h <;> simp_all

theorem readHeader_of_lt {s : State} (h : s.len < 3) : readHeader s = .ok none := if_pos h

theorem readHeader_of_ge {s : State} (h : 3 ≤ s.len) (hm : 3 ≤ s.cfg.frameMax) :
    readHeader s = .ok (some (s.fbByte 1, s.fbByte 2)) := by
  simp [readHeader, Nat.not_lt.mpr h, memRead_of_lt (s := s) (a := 1) (by omega),
    memRead_of_lt (s := s) (a := 2) (by omega)]

/-- What `frm.info` and `frm.reg` use of a frame (R148). -/
theorem infoFields_cases (s : State) (hm : 3 ≤ s.cfg.frameMax) :
    infoFields s = .ok (
      if trusted s && decide (s.result = .ok) && decide (s.cls = .read) then
        ((s.fbByte 2).toNat / 2, s.fbByte 2)
      else if trusted s && decide (s.result = .ok) && decide (s.cls = .fixed) then ((s.len - 4) / 2, 0#8)
      else (0, 0#8)) := by
  unfold infoFields
  rw [memRead_of_lt (s := s) (a := 2) (by omega)]
  split <;> [rfl; split <;> rfl]

theorem infoFields_of_not_trusted {s : State} (h : trusted s = false) : infoFields s = .ok (0, 0#8) := by
  simp [infoFields, h]

/-! ## Pushing and closing -/

theorem pushTarget_eq_some {s : State} {a : Nat} (h : pushTarget s = some a) :
    s.done = false ∧ s.len ≠ s.cfg.frameMax ∧ a = s.len := by
  unfold pushTarget at h
  split at h
  · cases h
  · split at h
    · cases h
    · exact ⟨by simp_all, by assumption, (Option.some.inj h).symm⟩

/-- Everything `frm.push` can do (R114). -/
theorem execFrmPush_next {b : Byte} {s t : State} (h : execFrmPush b s = .next t) :
    (s.done = true ∧ t = s.setStale.ack) ∨
    (s.done = false ∧ s.len = s.cfg.frameMax ∧ t = s.setOvr.ack) ∨
    (s.done = false ∧ s.len < s.cfg.frameMax ∧ t = (s.store b).ack) := by
  unfold execFrmPush pushTarget at h
  by_cases hd : s.done = true
  · simp [hd] at h; exact .inl ⟨hd, h.symm⟩
  · by_cases hl : s.len = s.cfg.frameMax
    · simp [hd, hl] at h; exact .inr (.inl ⟨by simpa using hd, hl, h.symm⟩)
    · simp only [hd, hl, if_false, Bool.false_eq_true] at h
      split at h
      · next hlt => exact .inr (.inr ⟨by simpa using hd, hlt, (Host.Outcome.next.inj h).symm⟩)
      · cases h

/-- Everything closing a frame can do (R115, R116). -/
theorem closeFrame_next {k : Layout} {fc : Byte} {s t : State} (h : closeFrame k fc s = .next t) :
    (s.done = true ∧ t = s.ack) ∨
    (s.done = false ∧ s.len ≤ s.cfg.frameMax ∧
      t = (s.latch k fc s.frame[0]? s.frame[1]? (verdict k s.frame s.ovr (crcVerdict s.ovr s.frame))
        (crcVerdict s.ovr s.frame)).ack) := by
  unfold closeFrame at h
  split at h
  · next hd => exact .inl ⟨hd, (Host.Outcome.next.inj h).symm⟩
  · next hd =>
    split at h
    · cases h
    · next f hf =>
      obtain ⟨hle, rfl⟩ := readFrame_eq_ok hf
      exact .inr ⟨by simpa using hd, hle, (Host.Outcome.next.inj h).symm⟩

theorem closeFrame_open {k : Layout} {fc : Byte} {s : State} (hd : s.done = false)
    (hl : s.len ≤ s.cfg.frameMax) :
    closeFrame k fc s =
      .next (s.latch k fc s.frame[0]? s.frame[1]? (verdict k s.frame s.ovr (crcVerdict s.ovr s.frame))
        (crcVerdict s.ovr s.frame)).ack := by
  simp [closeFrame, hd, readFrame_of_le hl]

theorem closeFrame_done {k : Layout} {fc : Byte} {s : State} (hd : s.done = true) :
    closeFrame k fc s = .next s.ack := by
  simp [closeFrame, hd]

/-- Everything closing an error reply can do (R115, R116, R117). -/
theorem closeErrorReply_next {k : Layout} {c : BitVec 7} {s t : State} (h : closeErrorReply k c s = .next t) :
    (s.done = true ∧ t = s.ack) ∨
    (s.done = false ∧ s.len ≤ s.cfg.frameMax ∧
      t = (s.latch k s.reqFc s.frame[0]? (some (errorCodeByte c))
        (errorReplyVerdict k s.frame.length s.ovr (crcVerdict s.ovr s.frame))
        (crcVerdict s.ovr s.frame)).ack) := by
  unfold closeErrorReply at h
  split at h
  · next hd => exact .inl ⟨hd, (Host.Outcome.next.inj h).symm⟩
  · next hd =>
    split at h
    · cases h
    · next f hf =>
      obtain ⟨hle, rfl⟩ := readFrame_eq_ok hf
      exact .inr ⟨by simpa using hd, hle, (Host.Outcome.next.inj h).symm⟩

theorem closeErrorReply_open {k : Layout} {c : BitVec 7} {s : State} (hd : s.done = false)
    (hl : s.len ≤ s.cfg.frameMax) :
    closeErrorReply k c s =
      .next (s.latch k s.reqFc s.frame[0]? (some (errorCodeByte c))
        (errorReplyVerdict k s.frame.length s.ovr (crcVerdict s.ovr s.frame))
        (crcVerdict s.ovr s.frame)).ack := by
  simp only [closeErrorReply, hd, readFrame_of_le hl, Bool.false_eq_true, if_false]

theorem closeErrorReply_done {k : Layout} {c : BitVec 7} {s : State} (hd : s.done = true) :
    closeErrorReply k c s = .next s.ack := by
  simp [closeErrorReply, hd]

/-- An accepted push (R114). -/
theorem execFrmPush_store {b : Byte} {s : State} (hd : s.done = false) (hl : s.len < s.cfg.frameMax) :
    execFrmPush b s = .next (s.store b).ack := by
  simp [execFrmPush, pushTarget, hd, hl, Nat.ne_of_lt hl]

/-- A push dropped because FB is full (R114). -/
theorem execFrmPush_full {b : Byte} {s : State} (hd : s.done = false) (hl : s.len = s.cfg.frameMax) :
    execFrmPush b s = .next s.setOvr.ack := by
  simp [execFrmPush, pushTarget, hd, hl]

/-- A push dropped because the frame is closed (R114). -/
theorem execFrmPush_done {b : Byte} {s : State} (hd : s.done = true) :
    execFrmPush b s = .next s.setStale.ack := by
  simp [execFrmPush, pushTarget, hd]

/-- Storing bytes one after the other appends them to the frame. -/
theorem storeAll_frame (s : State) (bs : List Byte) : (storeAll s bs).frame = s.frame ++ bs := by
  induction bs generalizing s with
  | nil => simp [storeAll]
  | cons b bs ih => simp [storeAll, ih]

/-! ## Steps -/

/-- Everything a step can do: nothing at the port, a reset, a command, or an idle cycle. -/
theorem step_cases {s t : State} (h : step s = .next t) :
    (s.port = [] ∧ t = s.idle) ∨
    ∃ c rest, s.port = c :: rest ∧
      ((c.rst = true ∧ t = State.applyReset { s with port := rest }) ∨
       (c.rst = false ∧ c.sel = true ∧ exec (decodeCmd c.word) { s with port := rest } = .next t) ∨
       (c.rst = false ∧ c.sel = false ∧ t = State.idle { s with port := rest })) := by
  unfold step at h
  split at h
  · next hp => exact .inl ⟨hp, (Host.Outcome.next.inj h).symm⟩
  · next c rest hp =>
    refine .inr ⟨c, rest, hp, ?_⟩
    unfold busStep at h
    split at h
    · next hr => exact .inl ⟨hr, (Host.Outcome.next.inj h).symm⟩
    · next hr =>
      split at h
      · next hs => exact .inr (.inl ⟨by simpa using hr, hs, h⟩)
      · next hs => exact .inr (.inr ⟨by simpa using hr, by simpa using hs, (Host.Outcome.next.inj h).symm⟩)

end Sys2Proof.Machine
end

