-- ==== Sys2Proof/Laws/Exec.lean ====
section
/-! SUPPORT. What an instruction can do, said once: `exec_effect` sorts every next state of `exec` into a
few shapes, guards included. Claims over all instructions
split on `Effect` and never unfold a meaning. -/

namespace Sys2Proof

/-- An instruction that only returns a value. -/
def Instr.reads : Instr → Bool
  | .crcRd | .crcRdlo | .crcRdhi | .frmRdreq | .frmStat | .frmLen | .frmHdr | .frmInfo => true
  | .frmExc | .frmRemain | .frmRxcrc | .sysStat | .frmReg _ => true
  | .crcInit | .crcUpd _ | .frmStart | .frmEnd | .frmPush _ | .frmReq _ _ | .ill _ _ _ => false
  | .fcReadHolding | .fcReadInput | .fcWriteSingle => false
  | .fcCalibration | .fcResetEnergy | .fcOther _ | .fcErrorReply _ => false

/-- The layout and the function code by which an instruction closes a frame (R111, R115). -/
def Instr.layout (s : Machine.State) : Instr → Option (Machine.Layout × Byte)
  | .frmEnd => some (Machine.classOf s.cfg s.reqFc, s.reqFc)
  | .fcReadHolding => some (.read, 0x03#8)
  | .fcReadInput => some (.read, 0x04#8)
  | .fcWriteSingle => some (.fixed s.cfg.lenWriteReply, 0x06#8)
  | .fcCalibration => some (.fixed s.cfg.lenCalibReply, 0x41#8)
  | .fcResetEnergy => some (.fixed s.cfg.lenResetReply, 0x42#8)
  | .fcOther fc => some (.raw, fc)
  | .fcErrorReply _ => none
  | .crcInit | .crcUpd _ | .crcRd | .crcRdlo | .crcRdhi | .frmStart | .frmPush _ | .frmReq _ _ => none
  | .frmRdreq | .frmStat | .frmLen | .frmHdr | .frmInfo | .frmExc | .frmRemain | .frmRxcrc => none
  | .sysStat | .frmReg _ | .ill _ _ _ => none

namespace Machine

/-- The shapes of a next state. -/
inductive Effect (i : Instr) (s : State) : State → Prop where
  | init (h : i = .crcInit) : Effect i s (s.setCrc crcInit).ack
  | upd (b : Byte) (h : i = .crcUpd b) : Effect i s (s.setCrc (crcByte s.crc b)).ack
  | answer (v : Word) (h : i.reads = true) : Effect i s (s.answer v)
  | start (h : i = .frmStart) : Effect i s s.clearFrame.ack
  | stale (b : Byte) (h : i = .frmPush b) (hd : s.done = true) : Effect i s s.setStale.ack
  | overflow (b : Byte) (h : i = .frmPush b) (hd : s.done = false) (hl : s.len = s.cfg.frameMax) :
      Effect i s s.setOvr.ack
  | store (b : Byte) (h : i = .frmPush b) (hd : s.done = false) (hl : s.len < s.cfg.frameMax) :
      Effect i s (s.store b).ack
  | request (a f : Byte) (h : i = .frmReq a f) : Effect i s (s.setReq a f).ack
  | closed (h : i.closes = true) (hd : s.done = true) : Effect i s s.ack
  | close (k : Layout) (fc : Byte) (h : i.layout s = some (k, fc)) (hd : s.done = false)
      (hl : s.len ≤ s.cfg.frameMax) :
      Effect i s (s.latch k fc s.frame[0]? s.frame[1]? (verdict k s.frame s.ovr (crcVerdict s.ovr s.frame))
        (crcVerdict s.ovr s.frame)).ack
  | closeError (c : BitVec 7) (h : i = .fcErrorReply c) (hd : s.done = false)
      (hl : s.len ≤ s.cfg.frameMax) :
      Effect i s (s.latch (classOf s.cfg s.reqFc) s.reqFc s.frame[0]? (some (errorCodeByte c))
        (errorReplyVerdict (classOf s.cfg s.reqFc) s.frame.length s.ovr (crcVerdict s.ovr s.frame))
        (crcVerdict s.ovr s.frame)).ack
  | illWrite (a : Byte) (d : Word) (h : i = .ill true a d) : Effect i s s.setIll.ack
  | illRead (a : Byte) (d : Word) (h : i = .ill false a d) : Effect i s (s.setIll.answer 0#16)

theorem Effect.of_closeFrame {i : Instr} {s t : State} {k : Layout} {fc : Byte} (hi : i.closes = true)
    (hk : i.layout s = some (k, fc)) (h : closeFrame k fc s = .next t) : Effect i s t := by
  rcases closeFrame_next h with ⟨hd, rfl⟩ | ⟨hd, hl, rfl⟩
  · exact .closed hi hd
  · exact .close k fc hk hd hl

theorem Effect.of_answerRead {i : Instr} {s t : State} {r : Except Fault Word} (hi : i.reads = true)
    (h : answerRead s r = .next t) : Effect i s t := by
  obtain ⟨v, -, rfl⟩ := answerRead_next h
  exact .answer v hi

theorem Effect.of_next_answer {i : Instr} {s t : State} {v : Word} (hi : i.reads = true)
    (h : Host.Outcome.next (σ := State) (φ := Fault) (ρ := Refusal) (s.answer v) = .next t) :
    Effect i s t := by
  cases h
  exact .answer v hi

/-- Everything an instruction can do when it answers a next state. -/
theorem exec_effect {i : Instr} {s t : State} (h : exec i s = .next t) : Effect i s t := by
  cases i with
  | crcInit => cases h; exact .init rfl
  | crcUpd b => cases h; exact .upd b rfl
  | crcRd => exact .of_next_answer rfl h
  | crcRdlo => exact .of_next_answer rfl h
  | crcRdhi => exact .of_next_answer rfl h
  | frmStart => cases h; exact .start rfl
  | frmEnd => exact .of_closeFrame rfl rfl h
  | frmPush b =>
    rcases execFrmPush_next h with ⟨hd, rfl⟩ | ⟨hd, hl, rfl⟩ | ⟨hd, hl, rfl⟩
    · exact .stale b rfl hd
    · exact .overflow b rfl hd hl
    · exact .store b rfl hd hl
  | frmReq a f => cases h; exact .request a f rfl
  | frmRdreq => exact .of_next_answer rfl h
  | frmStat => exact .of_next_answer rfl h
  | frmLen => exact .of_next_answer rfl h
  | frmHdr =>
    simp only [exec, execFrmHdr] at h
    split at h
    · exact .of_answerRead rfl h
    · exact .of_next_answer rfl h
  | frmInfo => exact .of_answerRead rfl h
  | frmExc =>
    simp only [exec, execFrmExc] at h
    split at h
    · exact .of_answerRead rfl h
    · exact .of_next_answer rfl h
  | frmRemain => exact .of_answerRead rfl h
  | frmRxcrc => exact .of_next_answer rfl h
  | sysStat => exact .of_next_answer rfl h
  | frmReg k =>
    simp only [exec, execFrmReg] at h
    split at h
    · cases h
    · split at h
      · exact .of_answerRead rfl h
      · exact .of_next_answer rfl h
  | ill wr a d =>
    cases wr <;> cases h
    · exact .illRead a d rfl
    · exact .illWrite a d rfl
  | fcReadHolding => exact .of_closeFrame rfl rfl h
  | fcReadInput => exact .of_closeFrame rfl rfl h
  | fcWriteSingle => exact .of_closeFrame rfl rfl h
  | fcCalibration => exact .of_closeFrame rfl rfl h
  | fcResetEnergy => exact .of_closeFrame rfl rfl h
  | fcOther fc => exact .of_closeFrame rfl rfl h
  | fcErrorReply c =>
    rcases closeErrorReply_next h with ⟨hd, rfl⟩ | ⟨hd, hl, rfl⟩
    · exact .closed rfl hd
    · exact .closeError c rfl hd hl

/-- Two instructions that only read never touch the layout of a close: a closing instruction reads
nothing. -/
theorem Instr.closes_of_layout {i : Instr} {s : State} {p : Layout × Byte} (h : i.layout s = some p) :
    i.closes = true := by
  cases i <;> simp_all [Instr.layout, Instr.closes]

end Machine

end Sys2Proof
end

