-- ==== Sys2Proof/Laws/PerInstr.lean ====
section
/-! SUPPORT. The per-instruction family `TableMatch`: the code of every instruction has the fixed bits of its
row of spec/opcode_table.json. -/

namespace Sys2Proof.Laws.TableMatch

/-- The columns `mask` and `match` of the row (spec/opcode_table.json). The rows `ill` and `fc.other` are
'matched by no other row' and fix no bits: their mask is 0. -/
def row : Instr → Nat × Nat
  | .crcInit => (0x1FFFFFF, 0x1000001)
  | .crcUpd _ => (0x1FF0000, 0x1010000)
  | .crcRd => (0x1FF0000, 0x0020000)
  | .crcRdlo => (0x1FF0000, 0x0030000)
  | .crcRdhi => (0x1FF0000, 0x0040000)
  | .frmStart => (0x1FFFFFF, 0x1100001)
  | .frmEnd => (0x1FFFFFF, 0x1100002)
  | .frmPush _ => (0x1FF0000, 0x1110000)
  | .frmReq _ _ => (0x1FF0000, 0x1120000)
  | .frmRdreq => (0x1FF0000, 0x0120000)
  | .frmStat => (0x1FF0000, 0x0130000)
  | .frmLen => (0x1FF0000, 0x0140000)
  | .frmHdr => (0x1FF0000, 0x0150000)
  | .frmInfo => (0x1FF0000, 0x0160000)
  | .frmExc => (0x1FF0000, 0x0170000)
  | .frmRemain => (0x1FF0000, 0x0180000)
  | .frmRxcrc => (0x1FF0000, 0x0190000)
  | .sysStat => (0x1FF0000, 0x07F0000)
  | .frmReg _ => (0x1800000, 0x0800000)
  | .ill _ _ _ => (0, 0)
  | .fcReadHolding => (0xFF, 0x03)
  | .fcReadInput => (0xFF, 0x04)
  | .fcWriteSingle => (0xFF, 0x06)
  | .fcCalibration => (0xFF, 0x41)
  | .fcResetEnergy => (0xFF, 0x42)
  | .fcOther _ => (0, 0)
  | .fcErrorReply _ => (0x80, 0x80)

/-- A code as the number the table writes. -/
def codeNumber : Code → Nat
  | .cmd w => w.toNat
  | .reqFc b => b.toNat
  | .rxFc b => b.toNat

/-- The code of `i`, masked, is the row's `match`. -/
def Statement (i : Instr) : Prop := codeNumber (encode i) &&& (row i).1 = (row i).2

/-- Masking to `W` and `A` leaves nothing of `D`. -/
theorem masked_eq (wr : Bool) (a : Byte) (d : Word) :
    cmdWord wr a d &&& 0x1FF0000#25 = cmdWord wr a 0#16 &&& 0x1FF0000#25 := by
  apply BitVec.eq_of_getLsbD_eq
  intro i hi
  by_cases h : i < 16
  · have : (0x1FF0000#25).getLsbD i = false := by revert i; decide
    simp [this]
  · simp only [BitVec.getLsbD_and, cmdWord, BitVec.getLsbD_append, h, if_false]

/-- The number of a command word masked to `W` and `A`. -/
theorem codeNumber_masked (wr : Bool) (a : Byte) (d : Word) :
    codeNumber (.cmd (cmdWord wr a d)) &&& 0x1FF0000 = codeNumber (.cmd (cmdWord wr a 0#16)) &&& 0x1FF0000 := by
  have h := congrArg BitVec.toNat (masked_eq wr a d)
  exact ((BitVec.toNat_and _ _).symm.trans h).trans (BitVec.toNat_and _ _)

theorem crcInit : Statement .crcInit := rfl

theorem crcUpd (b : Byte) : Statement (.crcUpd b) := by
  exact (codeNumber_masked _ _ _).trans rfl

theorem crcRd : Statement .crcRd := rfl

theorem crcRdlo : Statement .crcRdlo := rfl

theorem crcRdhi : Statement .crcRdhi := rfl

theorem frmStart : Statement .frmStart := rfl

theorem frmEnd : Statement .frmEnd := rfl

theorem frmPush (b : Byte) : Statement (.frmPush b) := by
  exact (codeNumber_masked _ _ _).trans rfl

theorem frmReq (a f : Byte) : Statement (.frmReq a f) := by
  exact (codeNumber_masked _ _ _).trans rfl

theorem frmRdreq : Statement .frmRdreq := rfl

theorem frmStat : Statement .frmStat := rfl

theorem frmLen : Statement .frmLen := rfl

theorem frmHdr : Statement .frmHdr := rfl

theorem frmInfo : Statement .frmInfo := rfl

theorem frmExc : Statement .frmExc := rfl

theorem frmRemain : Statement .frmRemain := rfl

theorem frmRxcrc : Statement .frmRxcrc := rfl

theorem sysStat : Statement .sysStat := rfl

theorem frmReg (i : BitVec 7) : Statement (.frmReg i) := by
  revert i; unfold Statement; decide

theorem ill (wr : Bool) (a : Byte) (d : Word) : Statement (.ill wr a d) := Nat.and_zero _

theorem fcReadHolding : Statement .fcReadHolding := rfl

theorem fcReadInput : Statement .fcReadInput := rfl

theorem fcWriteSingle : Statement .fcWriteSingle := rfl

theorem fcCalibration : Statement .fcCalibration := rfl

theorem fcResetEnergy : Statement .fcResetEnergy := rfl

theorem fcOther (fc : Byte) : Statement (.fcOther fc) := Nat.and_zero _

theorem fcErrorReply (c : BitVec 7) : Statement (.fcErrorReply c) := by
  revert c; unfold Statement; decide

end Sys2Proof.Laws.TableMatch
end

