-- ==== Sys2Proof/Tests/Slice0.lean ====
section
/-! SUPPORT. The model's own tests. Words and expected values come from the spec: the vectors V1 to V77 and
the programs P1 to P7 of spec/95_test_vectors.md, the encodings of 30_encoding.md R61 and R66. After them,
one witness theorem for every obligation that has hypotheses. -/

namespace Sys2Proof.Tests

open Sys2Proof.Machine

-- one proof after the other, so that the kernel evaluations share one thread
set_option Elab.async false

/-! ## Small states -/

/-- Bytes at the addresses from 0 on. -/
def cells (bs : List Byte) : Memory := (List.range bs.length).zip bs

/-- The reset state with `REQ = {a, f}` and the bytes stored in an open frame. -/
def openFrame (a f : Byte) (bs : List Byte) : State :=
  { State.reset with reqAddr := a, reqFc := f, fb := cells bs, len := bs.length, rxcrc := crc16 bs }

/-- A frame closed with a verdict; both match flags are set where the frame is trusted. -/
def closedFrame (a f : Byte) (bs : List Byte) (r : Result) (v : Bool) (k : Cls) : State :=
  { openFrame a f bs with
    done := true, result := r, crcOk := v, cls := k,
    amatch := passed r && decide (k ≠ .raw), fmatch := passed r && decide (k ≠ .raw) }

/-- A state with one bus cycle at the port. -/
def withCycle (s : State) (c : BusCycle) : State := { s with port := [c] }

/-- The state after an instruction, or `s` where it stops. -/
def after (i : Instr) (s : State) : State :=
  match exec i s with
  | .next t => t
  | .fault _ => s
  | .refused _ => s

/-- What a read returns. -/
def readOf (i : Instr) (s : State) : Option Word := (after i s).rdata

/-- The frame of V31, `REQ = 0xF804`. -/
def v31 : List Byte :=
  [0xF8#8, 0x04#8, 0x14#8, 0x08#8, 0xFC#8, 0x00#8, 0x00#8, 0x05#8, 0xDC#8, 0x00#8, 0x00#8, 0x00#8, 0x14#8] ++
  [0x04#8, 0xB0#8, 0x00#8, 0x00#8, 0x13#8, 0x88#8, 0x03#8, 0xE3#8, 0x00#8, 0x00#8, 0x8C#8, 0x10#8]

/-- The frame of V35, `REQ = 0xF803`. -/
def v35 : List Byte := [0xF8#8, 0x03#8, 0x02#8, 0x08#8, 0xFC#8, 0x23#8, 0xD1#8]

/-- The error reply of V41, `REQ = 0xF804`. -/
def v41 : List Byte := [0xF8#8, 0x84#8, 0x02#8, 0x12#8, 0xF0#8]

/-- The frame of V60, `REQ = 0xF806`. -/
def v60 : List Byte := [0xF8#8, 0x06#8, 0x00#8, 0x01#8, 0x08#8, 0xFC#8, 0xCB#8, 0xE2#8]

def closed31 : State := closedFrame 0xF8#8 0x04#8 v31 .ok true .read
def closed41 : State := closedFrame 0xF8#8 0x04#8 v41 .protocolError true .read
def closed60 : State := closedFrame 0xF8#8 0x06#8 v60 .ok true .fixed

/-! ## WellFormed: an ill-formed term for each check -/

/-- `wr 0x10, 0x0001` is `frm.start`, not an illegal access (R113, R153). -/
theorem test_wf_refuses_ill_of_frm_start : (Instr.ill true 0x10#8 0x0001#16).wf = false := by decide
/-- `rd 0x80` is `frm.reg 0`. -/
theorem test_wf_refuses_ill_of_frm_reg : (Instr.ill false 0x80#8 0x0000#16).wf = false := by decide
/-- 0x04 is a known function code (R66). -/
theorem test_wf_refuses_other_of_known : (Instr.fcOther 0x04#8).wf = false := by decide
theorem test_wf_accepts_v76 :
    (Instr.ill true 0x10#8 0x0003#16).wf = true ∧ (Instr.ill true 0x00#8 0x0000#16).wf = true ∧
    (Instr.ill true 0x90#8 0x0001#16).wf = true ∧ (Instr.ill false 0x11#8 0x0000#16).wf = true ∧
    (Instr.ill false 0x7E#8 0x0000#16).wf = true ∧ (Instr.fcOther 0x83#8).wf = true := by decide

/-! ## Decode: words written out from R61 and R66 -/

/-- `1 00000000 0000000000000001` and the GEN words of P1 and V12. -/
theorem test_decode_gen :
    decodeTableWord 32 0b1000000000000000000000001 = some .crcInit ∧
    decodeTableWord 32 0x10100F8 = some (.crcUpd 0xF8#8) ∧
    decodeTableWord 32 0x101ABF8 = some (.crcUpd 0xF8#8) ∧
    decodeTableWord 32 0x0020000 = some .crcRd ∧ decodeTableWord 32 0x0030000 = some .crcRdlo ∧
    decodeTableWord 32 0x0040000 = some .crcRdhi := by decide
/-- `1 00010000 0000000000000010` and the CHK words of P2. -/
theorem test_decode_chk :
    decodeTableWord 32 0b1000100000000000000000010 = some .frmEnd ∧
    decodeTableWord 32 0x1100001 = some .frmStart ∧
    decodeTableWord 32 0x11100FC = some (.frmPush 0xFC#8) := by decide
/-- `0 1iiiiiii` and the host-access words of P2. -/
theorem test_decode_access :
    decodeTableWord 32 0x112F804 = some (.frmReq 0xF8#8 0x04#8) ∧
    decodeTableWord 32 0x0120000 = some .frmRdreq ∧ decodeTableWord 32 0x0130000 = some .frmStat ∧
    decodeTableWord 32 0x0140000 = some .frmLen ∧ decodeTableWord 32 0x0150000 = some .frmHdr ∧
    decodeTableWord 32 0x0160000 = some .frmInfo ∧ decodeTableWord 32 0x0170000 = some .frmExc ∧
    decodeTableWord 32 0x0180000 = some .frmRemain ∧ decodeTableWord 32 0x0190000 = some .frmRxcrc ∧
    decodeTableWord 32 0x07F0000 = some .sysStat ∧
    decodeTableWord 32 0b0100010100000000000000000 = some (.frmReg 10#7) ∧
    decodeTableWord 32 0x0FF0000 = some (.frmReg 127#7) := by decide
/-- The illegal words of P6. -/
theorem test_decode_illegal :
    decodeTableWord 32 0x1100003 = some (.ill true 0x10#8 0x0003#16) ∧
    decodeTableWord 32 0x0050000 = some (.ill false 0x05#8 0x0000#16) ∧
    decodeTableWord 32 0x1021234 = some (.ill true 0x02#8 0x1234#16) ∧
    decodeTableWord 32 0x1000000 = some (.ill true 0x00#8 0x0000#16) ∧
    decodeTableWord 32 0x0110000 = some (.ill false 0x11#8 0x0000#16) ∧
    decodeTableWord 32 0x1900001 = some (.ill true 0x90#8 0x0001#16) := by decide
/-- The function codes of R66 and R76, and the error code of R65. -/
theorem test_decode_function_codes :
    decodeTableWord 8 0b00000011 = some .fcReadHolding ∧ decodeTableWord 8 0b00000100 = some .fcReadInput ∧
    decodeTableWord 8 0b00000110 = some .fcWriteSingle ∧ decodeTableWord 8 0b01000001 = some .fcCalibration ∧
    decodeTableWord 8 0b01000010 = some .fcResetEnergy ∧ decodeTableWord 8 0x10 = some (.fcOther 0x10#8) ∧
    decodeTableWord 8 0b10000100 = some (.fcErrorReply 4#7) := by decide
/-- Rejected by name: more bits than the format has, a length no row has, a received byte without 0x80. -/
theorem test_decode_rejects :
    codeOfNumber 32 0x2000000 = .error .wordTooWide ∧ codeOfNumber 8 0x100 = .error .functionCodeTooWide ∧
    codeOfNumber 40 0 = .error .noSuchLength ∧ codeOfNumber 0 0 = .error .noSuchLength ∧
    decode (.rxFc 0x04#8) = .error .noErrorFlag := by decide

/-! ## Reset -/

/-- V77. -/
theorem test_reset_reads :
    readOf .crcRd State.reset = some 0xFFFF#16 ∧ readOf .frmRdreq State.reset = some 0x0000#16 ∧
    readOf .frmStat State.reset = some 0x0000#16 ∧ readOf .frmLen State.reset = some 0x0000#16 ∧
    readOf .frmHdr State.reset = some 0x0000#16 ∧ readOf .frmInfo State.reset = some 0x0000#16 ∧
    readOf .frmExc State.reset = some 0x0000#16 ∧ readOf .frmRemain State.reset = some 0x0000#16 ∧
    readOf .frmRxcrc State.reset = some 0xFFFF#16 ∧ readOf .sysStat State.reset = some 0x0000#16 ∧
    readOf (.frmReg 127#7) State.reset = some 0x0000#16 := by decide

/-! ## GEN -/

/-- V1: the first four rows of the trace of `crc_byte(0xFFFF, 0xF8)`. -/
theorem test_crcShift_v1 :
    crcShift 0xFF07#16 = 0xDF82#16 ∧ crcShift 0xDF82#16 = 0x6FC1#16 ∧ crcShift 0x6FC1#16 = 0x97E1#16 ∧
    crcShift 0x97E1#16 = 0xEBF1#16 := by decide
/-- V1: the first row of the bit-serial trace. -/
theorem test_crcBit_v1 : crcBit 0xFFFF#16 false = 0xDFFE#16 ∧ crcBit 0xDFFE#16 false = 0x6FFF#16 := by
  decide
theorem test_crcInit : (after .crcInit { State.reset with crc := 0x1234#16 }).crc = 0xFFFF#16 := by decide
/-- V2. -/
theorem test_crcUpd :
    (after (.crcUpd 0x56#8) { State.reset with crc := 0x1234#16 }).crc = 0xE993#16 := by decide
/-- V2, row 11: a bit in the high byte only shifts. -/
theorem test_crcUpd_high :
    (after (.crcUpd 0x00#8) { State.reset with crc := 0x8000#16 }).crc = 0x0080#16 := by decide
/-- V6. -/
theorem test_crc_reads :
    readOf .crcRd { State.reset with crc := 0x41C2#16 } = some 0x41C2#16 ∧
    readOf .crcRdlo { State.reset with crc := 0x41C2#16 } = some 0x00C2#16 ∧
    readOf .crcRdhi { State.reset with crc := 0x41C2#16 } = some 0x0041#16 := by decide
/-- V7, the check value. -/
theorem test_crc16_check_value :
    crc16 [0x31#8, 0x32#8, 0x33#8, 0x34#8, 0x35#8, 0x36#8, 0x37#8, 0x38#8, 0x39#8] = 0x4B37#16 := by
  decide +kernel
/-- V10. -/
theorem test_validate_corners :
    validate [] = false ∧ validate [0xFF#8] = false ∧ validate [0xFF#8, 0xFF#8] = true ∧
    validate [0xF8#8, 0x42#8, 0xC2#8, 0x41#8] = true ∧
    validate [0xF8#8, 0x42#8, 0x41#8, 0xC2#8] = false := by decide +kernel

/-! ## CHK -/

/-- V75, last sentence. -/
theorem test_frmStart :
    statWord (after .frmStart closed31) = 0x0000#16 ∧ (after .frmStart closed31).len = 0 ∧
    (after .frmStart closed31).rxcrc = 0xFFFF#16 := by decide
/-- V31, first push. -/
theorem test_frmPush :
    (after (.frmPush 0xF8#8) (openFrame 0xF8#8 0x04#8 [])).rxcrc = 0xC2BE#16 ∧
    (after (.frmPush 0xF8#8) (openFrame 0xF8#8 0x04#8 [])).fbByte 0 = 0xF8#8 ∧
    (after (.frmPush 0xF8#8) (openFrame 0xF8#8 0x04#8 [])).len = 1 := by decide
/-- V75: a byte pushed into a closed frame is dropped and shows as `STALE`. -/
theorem test_frmPush_stale :
    statWord (after (.frmPush 0xAA#8) (closedFrame 0xF8#8 0x04#8 (v31.set 5 0x10#8) .corruptFrame false .read))
      = 0x1449#16 := by decide
/-- V31. -/
theorem test_frmEnd : statWord (after .frmEnd (openFrame 0xF8#8 0x04#8 v31)) = 0x0713#16 := by decide +kernel
/-- V37: a good CRC under a wrong length. -/
theorem test_frmEnd_length_first :
    statWord (after .frmEnd (openFrame 0xF8#8 0x04#8 [0xF8#8, 0x04#8, 0x43#8, 0xB3#8])) = 0x1417#16 := by
  decide +kernel

/-! ## Host access -/

theorem test_frmReq :
    readOf .frmRdreq (after (.frmReq 0xF8#8 0x06#8) closed31) = some 0xF806#16 := by decide
theorem test_frmStat : readOf .frmStat closed41 = some 0x071B#16 := by decide
/-- P7: overflow while open. -/
theorem test_frmStat_overflow :
    readOf .frmStat { State.reset with ovr := true } = some 0x0020#16 := by decide
theorem test_frmLen : readOf .frmLen closed31 = some 0x0019#16 := by decide
theorem test_frmHdr : readOf .frmHdr closed31 = some 0xF804#16 := by decide
theorem test_frmInfo_read : readOf .frmInfo closed31 = some 0x0A14#16 := by decide
theorem test_frmInfo_fixed : readOf .frmInfo closed60 = some 0x0200#16 := by decide
/-- V41, V45. -/
theorem test_frmExc :
    readOf .frmExc closed41 = some 0x0202#16 ∧
    readOf .frmExc (closedFrame 0xF8#8 0x04#8 [0xF8#8, 0x84#8, 0x09#8, 0x53#8, 0x37#8] .protocolError true .read)
      = some 0x0709#16 := by decide
/-- V70, after push 3. -/
theorem test_frmRemain_read :
    readOf .frmRemain (openFrame 0xF8#8 0x04#8 (v31.take 3)) = some 0x0016#16 := by decide
/-- V71, after push 3. -/
theorem test_frmRemain_error :
    readOf .frmRemain (openFrame 0xF8#8 0x04#8 (v41.take 3)) = some 0x0002#16 := by decide
/-- V31, before the two CRC bytes. -/
theorem test_frmRxcrc : readOf .frmRxcrc (openFrame 0xF8#8 0x04#8 (v31.take 23)) = some 0x108C#16 := by
  decide +kernel
theorem test_frmReg :
    readOf (.frmReg 2#7) closed31 = some 0x05DC#16 ∧ readOf (.frmReg 10#7) closed31 = some 0x0000#16 := by
  decide
/-- V60. -/
theorem test_frmReg_fixed :
    readOf (.frmReg 1#7) closed60 = some 0x08FC#16 ∧ readOf (.frmReg 2#7) closed60 = some 0x0000#16 := by
  decide
/-- V76, P6. -/
theorem test_ill :
    (after (.ill true 0x10#8 0x0003#16) State.reset).ill = true ∧
    readOf (.ill false 0x05#8 0x0000#16) State.reset = some 0x0000#16 := by decide
theorem test_sysStat : readOf .sysStat { State.reset with ill := true } = some 0x0001#16 := by decide

/-! ## Function-code rows -/

/-- V35. -/
theorem test_fcReadHolding :
    statWord (after .fcReadHolding (openFrame 0xF8#8 0x03#8 v35)) = 0x0713#16 := by decide +kernel
/-- V46: the wrong function. -/
theorem test_fcReadInput :
    statWord (after .fcReadInput (openFrame 0xF8#8 0x04#8
      [0xF8#8, 0x03#8, 0x02#8, 0x00#8, 0x05#8, 0xE4#8, 0x53#8])) = 0x0513#16 := by decide +kernel
/-- V60. -/
theorem test_fcWriteSingle :
    statWord (after .fcWriteSingle (openFrame 0xF8#8 0x06#8 v60)) = 0x0B13#16 := by decide +kernel
/-- V65. -/
theorem test_fcCalibration :
    statWord (after .fcCalibration (openFrame 0xF8#8 0x41#8
      [0xF8#8, 0x41#8, 0x37#8, 0x21#8, 0xB7#8, 0x78#8])) = 0x0B13#16 := by decide +kernel
/-- V63. -/
theorem test_fcResetEnergy :
    statWord (after .fcResetEnergy (openFrame 0xF8#8 0x42#8 [0xF8#8, 0x42#8, 0xC2#8, 0x41#8])) = 0x0B13#16 := by
  decide +kernel
/-- V55: 0x83 in `REQ_FC` is not 0x03. -/
theorem test_fcOther :
    statWord (after (.fcOther 0x83#8) (openFrame 0xF8#8 0x83#8
      [0xF8#8, 0x83#8, 0x02#8, 0x10#8, 0xC0#8])) = 0x0013#16 := by decide +kernel
/-- V64. -/
theorem test_fcErrorReply :
    statWord (after (.fcErrorReply 0x42#7) (openFrame 0xF8#8 0x42#8
      [0xF8#8, 0xC2#8, 0x01#8, 0x60#8, 0x91#8])) = 0x0B1B#16 := by decide +kernel

/-! ## The placed word runs first after reset -/

/-- `frm.push 0xFC`, placed at reset. -/
theorem test_withFetchWord_command :
    ∃ t, step (State.reset.withFetchWord 32 0x11100FC) = .next t ∧ t.len = 1 ∧ t.port = [] := ⟨_, rfl, rfl, rfl⟩
/-- `fc.read_input`, placed at reset: an empty frame under class READ is `TRUNCATED` (V30). -/
theorem test_withFetchWord_function_code :
    ∃ t, step (State.reset.withFetchWord 8 0x04) = .next t ∧ statWord t = 0x1405#16 := ⟨_, rfl, by decide⟩
/-- `fc.error_reply`, placed at reset. -/
theorem test_withFetchWord_error_code :
    ∃ t, step (State.reset.withFetchWord 8 0x84) = .next t ∧ t.result = .protocolError ∧ t.fbByte 1 = 0x84#8 :=
  ⟨_, rfl, by decide +kernel, by decide +kernel⟩

/-! ## Witnesses: states and operands that meet the hypotheses of the obligations

One theorem per obligation with hypotheses, one conjunct per clause, at boundary values. -/

/-- The facts of `State.Inv` about the buffer, in a form that can be evaluated. -/
abbrev BufferFacts (s : State) : Prop :=
  s.cfg.wf ∧ Memory.wf s.fb ∧ (∀ c ∈ s.fb, c.1 < s.cfg.frameMax) ∧
  (∀ a, a < s.len → (Memory.lookup s.fb a).isSome = true) ∧ s.len ≤ s.cfg.frameMax ∧
  s.rxcrc = crc16 s.frame ∧ (s.ovr = true → s.len = s.cfg.frameMax)

/-- Those about an open frame and the verdict. -/
abbrev VerdictFacts (s : State) : Prop :=
  (s.done = false →
    s.result = .none ∧ s.crcOk = false ∧ s.cls = .raw ∧ s.amatch = false ∧ s.fmatch = false ∧ s.stale = false) ∧
  (s.done = true → s.result ≠ .none) ∧ (passed s.result = true → s.crcOk = true ∧ s.ovr = false) ∧
  (s.result = .protocolError → s.len = 5 ∧ errorFlag (s.fbByte 1) = true ∧ s.cls ≠ .raw) ∧
  (s.done = true → s.cls = .raw → s.result = .ok ∨ s.result = .corruptFrame) ∧
  (s.done = true → s.crcOk = crcVerdict s.ovr s.frame)

/-- Those about lengths and the match flags. -/
abbrev LengthFacts (s : State) : Prop :=
  (s.result = .ok → s.cls = .read → s.len = 5 + (s.fbByte 2).toNat) ∧
  (s.result = .ok → s.cls = .fixed →
    s.len = s.cfg.lenWriteReply ∨ s.len = s.cfg.lenCalibReply ∨ s.len = s.cfg.lenResetReply) ∧
  (s.amatch = true ∨ s.fmatch = true → trusted s = true)

theorem inv_of_facts {s : State} (hb : BufferFacts s) (hv : VerdictFacts s) (hl : LengthFacts s) : s.Inv :=
  let ⟨h1, h2, h3, h4, h5, h6, h9⟩ := hb
  let ⟨h7, h8, h10, h11, h12, h13⟩ := hv
  let ⟨h14, h15, h16⟩ := hl
  ⟨h1, ⟨h2, h3, h4⟩, h5, h6, h7, h8, h9, h10, h11, h12, h13, h14, h15, h16⟩

/-- An open frame of three bytes. -/
def open3 : State := openFrame 0xF8#8 0x04#8 (v41.take 3)

theorem open3_inv : open3.Inv := inv_of_facts (by decide +kernel) (by decide +kernel) (by decide +kernel)
theorem open35_inv : (openFrame 0xF8#8 0x03#8 v35).Inv := inv_of_facts (by decide +kernel) (by decide +kernel) (by decide +kernel)
theorem open41_inv : (openFrame 0xF8#8 0x04#8 v41).Inv := inv_of_facts (by decide +kernel) (by decide +kernel) (by decide +kernel)
theorem closed31_inv : closed31.Inv := inv_of_facts (by decide +kernel) (by decide +kernel) (by decide +kernel)
theorem closed41_inv : closed41.Inv := inv_of_facts (by decide +kernel) (by decide +kernel) (by decide +kernel)
theorem closed60_inv : closed60.Inv := inv_of_facts (by decide +kernel) (by decide +kernel) (by decide +kernel)
/-- A corrupt frame, closed: neither trusted nor `CRC_OK`. -/
def closed33 : State := closedFrame 0xF8#8 0x04#8 (v31.set 5 0x10#8) .corruptFrame false .read
theorem closed33_inv : closed33.Inv := inv_of_facts (by decide +kernel) (by decide +kernel) (by decide +kernel)

/-- The bus cycle of `frm.end`. -/
def cycleEnd : BusCycle := { rst := false, sel := true, wr := true, addr := 0x10#8, wdata := 0x0002#16 }
/-- A cycle that requests nothing. -/
def cycleIdle : BusCycle := { cycleEnd with sel := false }
/-- A reset offered together with a command. -/
def cycleReset : BusCycle := { cycleEnd with rst := true }

theorem test_witness_StepRunsBusCommand :
    (withCycle open3 cycleEnd).port = cycleEnd :: [] ∧ cycleEnd.rst = false ∧ cycleEnd.sel = true ∧
    Instr.wf .frmEnd = true ∧ encode .frmEnd = .cmd (cmdWord cycleEnd.wr cycleEnd.addr cycleEnd.wdata) :=
  ⟨rfl, rfl, rfl, rfl, rfl⟩

theorem test_witness_StepWithoutCommandHoldsState :
    open3.port = [] ∧
    ((withCycle open3 cycleIdle).port = cycleIdle :: [] ∧ cycleIdle.rst = false ∧ cycleIdle.sel = false) :=
  ⟨rfl, rfl, rfl, rfl⟩

theorem test_witness_ResetCycleLoadsResetValues :
    (withCycle closed31 cycleReset).port = cycleReset :: [] ∧ cycleReset.rst = true := ⟨rfl, rfl⟩

theorem test_witness_InvariantKeptByStep :
    (withCycle open3 cycleEnd).Inv ∧ ∃ t, step (withCycle open3 cycleEnd) = .next t :=
  ⟨inv_of_facts (by decide +kernel) (by decide +kernel) (by decide +kernel), _, rfl⟩

theorem test_witness_InvariantKeptByEveryCommand :
    (open3.Inv ∧ (∃ t, exec (.frmPush 0x12#8) open3 = .next t) ∧
      ∀ c, Instr.frmPush 0x12#8 = .fcErrorReply c → open3.frame[1]? = some (errorCodeByte c)) ∧
    ((openFrame 0xF8#8 0x04#8 v41).Inv ∧ (∃ t, exec (.fcErrorReply 4#7) (openFrame 0xF8#8 0x04#8 v41) = .next t) ∧
      (openFrame 0xF8#8 0x04#8 v41).frame[1]? = some (errorCodeByte 4#7)) :=
  ⟨⟨open3_inv, ⟨_, rfl⟩, by simp⟩, open41_inv, ⟨_, rfl⟩, by decide +kernel⟩

theorem test_witness_EveryStepCompletes : (withCycle open3 cycleEnd).Inv := inv_of_facts (by decide +kernel) (by decide +kernel) (by decide +kernel)

/-- Two states that differ in a byte at LEN. -/
theorem test_witness_BytesAboveLenAreNeverRead :
    let s := withCycle open3 cycleEnd
    let t := { s with fb := Memory.write s.fb 3 0x77#8 }
    s.Inv ∧ s.agreeBelowLen t ∧ s.fb ≠ t.fb ∧ ∃ s', step s = .next s' :=
  ⟨inv_of_facts (by decide +kernel) (by decide +kernel) (by decide +kernel), ⟨rfl, by decide +kernel⟩, by decide +kernel, _, rfl⟩

theorem test_witness_IllIsStickyAndInert :
    (∃ t, exec (.ill true 0x10#8 0x0003#16) open3 = .next t) ∧
    (∃ t, step (withCycle { open3 with ill := true } cycleReset) = .next t ∧ t.ill = false) ∧
    ((∃ t, exec .frmEnd open3 = .next t) ∧ Instr.frmEnd ≠ .sysStat) :=
  ⟨⟨_, rfl⟩, ⟨_, rfl, rfl⟩, ⟨_, rfl⟩, by decide⟩

theorem test_witness_UnitsShareNoState :
    (Instr.isGen (.crcUpd 0xF8#8) = true ∧ ∃ t, exec (.crcUpd 0xF8#8) open3 = .next t) ∧
    (open3.crc = closed31.crc ∧ open3 ≠ closed31 ∧ ∃ t, exec .crcRd open3 = .next t) ∧
    (Instr.isChk .frmEnd = true ∧ ∃ t, exec .frmEnd open3 = .next t) ∧
    (∃ t, exec (.ill false 0x00#8 0x0000#16) open3 = .next t) :=
  ⟨⟨rfl, _, rfl⟩, ⟨rfl, by decide +kernel, _, rfl⟩, ⟨rfl, _, rfl⟩, _, rfl⟩

theorem test_witness_ReadsHaveNoSideEffects :
    (∃ t, exec (decodeCmd (cmdWord false 0x80#8 0xFFFF#16)) closed31 = .next t) ∧
    decodeCmd (cmdWord false 0x80#8 0xFFFF#16) ≠ .ill false 0x80#8 0xFFFF#16 ∧
    (∃ t, exec (decodeCmd (cmdWord false 0x7E#8 0x0000#16)) closed31 = .next t) ∧
    ((∃ t, exec .crcInit open3 = .next t) ∧ (∃ t, exec .frmStart open3 = .next t) ∧
      (∃ t, exec .frmEnd open3 = .next t) ∧ ∃ t, exec (.frmReq 0xF8#8 0x06#8) open3 = .next t) ∧
    (∃ t u, exec (.crcUpd 0xF8#8) open3 = .next t ∧ exec (.crcUpd 0xF8#8) t = .next u) ∧
    ({ open3 with len := 258 }.done = false ∧ { open3 with len := 258 }.len + 1 < open3.cfg.frameMax ∧
      ∃ t u, exec (.frmPush 0xF8#8) { open3 with len := 258 } = .next t ∧
        exec (.frmPush 0xF8#8) t = .next u) :=
  ⟨⟨_, rfl⟩, by decide +kernel, ⟨_, rfl⟩, ⟨⟨_, rfl⟩, ⟨_, rfl⟩, ⟨_, rfl⟩, _, rfl⟩, ⟨_, _, rfl, rfl⟩,
    rfl, by decide, _, _, rfl, rfl⟩

/-- An accepted push, and a push dropped by a full FB. -/
theorem test_witness_OnlyPushStoresToTheBuffer :
    ((∃ t, exec (.frmPush 0x12#8) open3 = .next t) ∧ pushTarget open3 = some 3) ∧
    ((∃ t, exec (.frmPush 0x12#8) { open3 with len := 260 } = .next t) ∧
      pushTarget { open3 with len := 260 } ≠ some 260) :=
  ⟨⟨⟨_, rfl⟩, rfl⟩, ⟨_, rfl⟩, by decide⟩

/-- The pushes at the last free place, at a full FB and on a closed frame; the ends of an open and a closed
frame; a command outside the table. -/
theorem test_witness_ChkStateMachine :
    ({ open3 with len := 259 }.done = false ∧ { open3 with len := 259 }.len < { open3 with len := 259 }.cfg.frameMax) ∧
    ({ open3 with len := 260 }.done = false ∧ { open3 with len := 260 }.len = { open3 with len := 260 }.cfg.frameMax) ∧
    closed31.done = true ∧
    ({ open3 with len := 260 }.done = false ∧ { open3 with len := 260 }.len ≤ { open3 with len := 260 }.cfg.frameMax) ∧
    (Instr.frmReq 0xF8#8 0x04#8 ≠ .frmStart ∧ (∀ b, Instr.frmReq 0xF8#8 0x04#8 ≠ .frmPush b) ∧
      Instr.closes (.frmReq 0xF8#8 0x04#8) = false ∧ ∃ t, exec (.frmReq 0xF8#8 0x04#8) open3 = .next t) :=
  ⟨⟨rfl, by decide⟩, ⟨rfl, rfl⟩, rfl, ⟨rfl, by decide⟩, by decide, by simp, rfl, _, rfl⟩

theorem test_witness_ParametersAndRequestKept :
    (∃ t, exec .frmEnd open3 = .next t) ∧ (∀ a f, Instr.frmEnd ≠ .frmReq a f) ∧ open3.Inv :=
  ⟨⟨_, rfl⟩, by simp, open3_inv⟩

theorem test_witness_AccessOutsideBufferFaults :
    { open3 with len := 261 }.done = false ∧ { open3 with len := 261 }.cfg.frameMax < { open3 with len := 261 }.len :=
  ⟨rfl, by decide⟩

theorem test_witness_DecodeEncodeAgree :
    Instr.wf (.frmReg 127#7) = true ∧ Instr.wf (.ill true 0x10#8 0x0003#16) = true ∧
    Instr.wf (.ill false 0x7E#8 0xFFFF#16) = true ∧ Instr.wf (.fcOther 0x00#8) = true := by decide

theorem test_witness_EncodeDecodeAgree : decodeRxFc 0x80#8 = .ok (.fcErrorReply 0#7) := by decide

theorem test_witness_OperandsAreAssembledAsR62 :
    0x80 ≤ (0x80#8 : Byte).toNat ∧ 0x80 ≤ (0xFF#8 : Byte).toNat := by decide

theorem test_witness_FrmEndDispatchesOnFunctionCode :
    open3.done = false ∧ (openFrame 0xF8#8 0x04#8 v41).done = false ∧
    classOf (openFrame 0xF8#8 0x04#8 v41).cfg (openFrame 0xF8#8 0x04#8 v41).reqFc ≠ .raw ∧
    (openFrame 0xF8#8 0x04#8 v41).frame[1]? = some (errorCodeByte 4#7) :=
  ⟨rfl, rfl, by decide, by decide +kernel⟩

theorem test_witness_PlacedWordRunsNext :
    0 < 2 ^ 25 ∧ 0x1FFFFFF < 2 ^ 25 ∧ (0x7F#8 : Byte).getLsbD 7 = false ∧ open3.done = false := by decide

theorem test_witness_CrcByteEquations :
    ∀ k, (fun k => (0xFFFF#16 : Word).getLsbD k ^^ (0xF8#8 : Byte).getLsbD k) k =
      ((0xFFFF#16 : Word).getLsbD k ^^ (0xF8#8 : Byte).getLsbD k) := fun _ => rfl

theorem test_witness_ValidateIsR97 : ([] : List Byte).length < 2 ∧ [0xFF#8].length < 2 := by decide

theorem test_witness_SingleBitFlipIsDetected : 0 < 8 ∧ 7 < 8 := by decide

theorem test_witness_ValidateIffResidueZero : 2 ≤ [0xFF#8, 0xFF#8].length := by decide

theorem test_witness_CrcInitLoadsOnes : (0x0000#16 : Word) ≠ 0x0001#16 ∧ (0x0002#16 : Word) ≠ 0x0001#16 := by decide

theorem test_witness_ClassOfIsR111 :
    (open3.done = false ∧ ∃ t, exec .frmEnd open3 = .next t) ∧
    (0x83#8 : Byte) ≠ 0x03#8 ∧ (0x83#8 : Byte) ≠ 0x04#8 ∧ (0x83#8 : Byte) ≠ 0x06#8 ∧ (0x83#8 : Byte) ≠ 0x41#8 ∧
    (0x83#8 : Byte) ≠ 0x42#8 := ⟨⟨rfl, _, rfl⟩, by decide⟩

/-- One frame for each test of R117: V30c, V49's flag on V35, V43, V42, V41, V40, V61, V31 and V63. -/
theorem test_witness_VerdictFollowsTheOrderOfR117 :
    Layout.read ≠ .raw ∧ [0xF8#8, 0x04#8].length < 3 ∧ 3 ≤ v35.length ∧
    ((0x84#8 : Byte) &&& 0x80#8 = 0x80#8 ∧ [0xF8#8, 0x84#8, 0x02#8, 0x00#8, 0x70#8, 0x0D#8].length ≠ 5) ∧
    (v41.length = 5 ∧ v41[1]? = some 0x84#8 ∧ v41[2]? = some 0x02#8) ∧
    ((0x04#8 : Byte) &&& 0x80#8 ≠ 0x80#8 ∧ ((0x04#8 : Byte).toNat : Int) ≠
      (([0xF8#8, 0x04#8, 0x04#8, 0x00#8, 0x01#8, 0x04#8, 0xE5#8] : List Byte).length : Int) - 5) ∧
    (Layout.fixed 8 ≠ .raw ∧ [0xF8#8, 0x06#8, 0x00#8, 0x01#8, 0x08#8, 0x85#8, 0x0A#8].length ≠ 8) ∧
    (v31[1]? = some 0x04#8 ∧ v31[2]? = some 0x14#8 ∧ ((0x14#8 : Byte).toNat : Int) = (v31.length : Int) - 5) ∧
    Layout.fixed 4 = .fixed [0xF8#8, 0x42#8, 0xC2#8, 0x41#8].length := by decide

theorem test_witness_FrmEndLatchesTheVerdict :
    let s := openFrame 0xF8#8 0x04#8 v41
    s.done = false ∧ s.len ≤ s.cfg.frameMax ∧ s.cfg.wf ∧
    (decide (classOf s.cfg s.reqFc ≠ .raw) && decide
      (verdict (classOf s.cfg s.reqFc) s.frame s.ovr (!s.ovr && validate s.frame) = .ok ∨
       verdict (classOf s.cfg s.reqFc) s.frame s.ovr (!s.ovr && validate s.frame) = .protocolError)) = true ∧
    s.reqAddr = 0xF8#8 ∧ s.reqFc = 0x04#8 ∧ s.ovr = false ∧ s.stale = false ∧
    s.frame = [0xF8#8, 0x84#8, 0x02#8, 0x12#8, 0xF0#8] := by decide +kernel

theorem test_witness_SecondFrmEndDoesNothing : closed31.done = true := rfl

theorem test_witness_FrmPushStoresOrDrops :
    closed31.done = true ∧
    ({ open3 with len := 260 }.done = false ∧ { open3 with len := 260 }.len = { open3 with len := 260 }.cfg.frameMax) ∧
    ({ open3 with len := 259 }.done = false ∧ { open3 with len := 259 }.len < { open3 with len := 259 }.cfg.frameMax) ∧
    (State.reset.done = false ∧ State.reset.len = 0 ∧ 0 < State.reset.cfg.frameMax ∧ State.reset.rxcrc = 0xFFFF#16) := by
  decide

theorem test_witness_FunctionCodeRowsLatch :
    (Instr.closes .fcReadInput = true ∧ Instr.fcReadInput ≠ .frmEnd ∧ closed31.done = true) ∧
    (open3.done = false ∧ open3.len ≤ open3.cfg.frameMax) ∧
    (Instr.fcOther 0x83#8 = .fcOther 0x83#8 ∧ Layout.raw = .raw) ∧
    classOf open3.cfg open3.reqFc ≠ .raw ∧
    ((openFrame 0xF8#8 0x83#8 v41).done = false ∧
      (openFrame 0xF8#8 0x83#8 v41).len ≤ (openFrame 0xF8#8 0x83#8 v41).cfg.frameMax ∧
      classOf (openFrame 0xF8#8 0x83#8 v41).cfg (openFrame 0xF8#8 0x83#8 v41).reqFc = .raw) := by decide +kernel

/-- V35 and V38 as replies of one word and of none, and the longest reply: 127 words, 259 bytes. -/
theorem test_witness_ReadReplyIsDelivered :
    (openFrame 0xF8#8 0x03#8 v35).done = false ∧ (openFrame 0xF8#8 0x03#8 v35).ovr = false ∧
    (openFrame 0xF8#8 0x03#8 v35).len ≤ (openFrame 0xF8#8 0x03#8 v35).cfg.frameMax ∧
    5 ≤ (openFrame 0xF8#8 0x03#8 v35).cfg.frameMax ∧ [0x08FC#16].length ≤ 127 ∧
    classOf (openFrame 0xF8#8 0x03#8 v35).cfg (openFrame 0xF8#8 0x03#8 v35).reqFc = .read ∧
    errorFlag 0x03#8 = false ∧ (openFrame 0xF8#8 0x03#8 v35).frame = readReply 0xF8#8 0x03#8 [0x08FC#16] ∧
    (openFrame 0xF8#8 0x04#8 [0xF8#8, 0x04#8, 0x00#8, 0xF2#8, 0xF1#8]).frame = readReply 0xF8#8 0x04#8 [] ∧
    (readReply 0xF8#8 0x04#8 (List.replicate 127 0#16)).length = 259 := by decide +kernel

theorem test_witness_ErrorReplyIsReported :
    (openFrame 0xF8#8 0x04#8 v41).done = false ∧ (openFrame 0xF8#8 0x04#8 v41).ovr = false ∧
    (openFrame 0xF8#8 0x04#8 v41).len ≤ (openFrame 0xF8#8 0x04#8 v41).cfg.frameMax ∧
    5 ≤ (openFrame 0xF8#8 0x04#8 v41).cfg.frameMax ∧
    classOf (openFrame 0xF8#8 0x04#8 v41).cfg (openFrame 0xF8#8 0x04#8 v41).reqFc ≠ .raw ∧
    (openFrame 0xF8#8 0x04#8 v41).frame = errorReply 0xF8#8 4#7 0x02#8 := by decide +kernel

/-- V60, and V63 as a reply without a body. -/
theorem test_witness_FixedReplyIsDelivered :
    (openFrame 0xF8#8 0x06#8 v60).done = false ∧ (openFrame 0xF8#8 0x06#8 v60).ovr = false ∧
    (openFrame 0xF8#8 0x06#8 v60).len ≤ (openFrame 0xF8#8 0x06#8 v60).cfg.frameMax ∧
    5 ≤ (openFrame 0xF8#8 0x06#8 v60).cfg.frameMax ∧
    classOf (openFrame 0xF8#8 0x06#8 v60).cfg (openFrame 0xF8#8 0x06#8 v60).reqFc =
      .fixed (2 * [0x0001#16, 0x08FC#16].length + 4) ∧
    errorFlag 0x06#8 = false ∧
    (openFrame 0xF8#8 0x06#8 v60).frame = fixedReply 0xF8#8 0x06#8 [0x0001#16, 0x08FC#16] ∧
    (classOf open3.cfg 0x42#8 = .fixed (2 * ([] : List Word).length + 4) ∧
      [0xF8#8, 0x42#8, 0xC2#8, 0x41#8] = fixedReply 0xF8#8 0x42#8 []) := by decide +kernel

theorem test_witness_LenAndSysStatReturnTheirElements : closed31.Inv := closed31_inv

theorem test_witness_FrmStatReturnsEveryField : open3.Inv ∧ open3.done = false := ⟨open3_inv, rfl⟩

/-- Class RAW; two bytes; an error flag; a read header; a fixed header. -/
theorem test_witness_FrmRemainCountsMissingBytes :
    3 ≤ open3.cfg.frameMax ∧ classOf State.reset.cfg State.reset.reqFc = .raw ∧
    (classOf open3.cfg open3.reqFc ≠ .raw ∧ (openFrame 0xF8#8 0x04#8 (v31.take 2)).len < 3) ∧
    (3 ≤ open3.len ∧ open3.fbByte 1 &&& 0x80#8 = 0x80#8) ∧
    (classOf closed31.cfg closed31.reqFc = .read ∧ 3 ≤ closed31.len ∧ closed31.fbByte 1 &&& 0x80#8 ≠ 0x80#8) ∧
    (classOf closed60.cfg closed60.reqFc = .fixed 8 ∧ 3 ≤ closed60.len ∧
      closed60.fbByte 1 &&& 0x80#8 ≠ 0x80#8) := by decide +kernel

theorem test_witness_NothingRemainsOfATrustedFrame :
    (openFrame 0xF8#8 0x03#8 v35).Inv ∧ (openFrame 0xF8#8 0x03#8 v35).done = false ∧
    ∃ t, exec .frmEnd (openFrame 0xF8#8 0x03#8 v35) = .next t ∧ trusted t = true :=
  ⟨open35_inv, rfl, _, rfl, by decide +kernel⟩

theorem test_witness_RxcrcIsZeroExactlyWhenCrcOk :
    (closed31.Inv ∧ closed31.done = true ∧ 2 ≤ closed31.len ∧ closed31.ovr = false ∧ closed31.crcOk = true) ∧
    (closed33.Inv ∧ closed33.done = true ∧ 2 ≤ closed33.len ∧ closed33.ovr = false ∧ closed33.crcOk = false) :=
  ⟨⟨closed31_inv, rfl, by decide, rfl, rfl⟩, closed33_inv, rfl, by decide, rfl, rfl⟩

theorem test_witness_GateShutsUntrustedFrames :
    trusted closed33 = false ∧ closed31.Inv ∧ trusted closed31 = true := ⟨rfl, closed31_inv, rfl⟩

theorem test_witness_FrmHdrReturnsTheHeader : 2 ≤ closed31.cfg.frameMax ∧ trusted closed31 = true := by decide

theorem test_witness_FrmInfoReturnsNregAndBc :
    (3 ≤ closed31.cfg.frameMax ∧ trusted closed31 = true ∧ closed31.result = .ok ∧ closed31.cls = .read ∧
      10 = (closed31.fbByte 2).toNat / 2 ∧ 20 = (closed31.fbByte 2).toNat) ∧
    (trusted closed60 = true ∧ closed60.result = .ok ∧ closed60.cls = .fixed ∧ 2 = (closed60.len - 4) / 2) ∧
    ¬ (trusted closed41 = true ∧ closed41.result = .ok) ∧
    (closed60.Inv ∧ closed60.cfg.lenWriteReply ≤ 259 ∧ closed60.cfg.lenCalibReply ≤ 259 ∧
      closed60.cfg.lenResetReply ≤ 259) :=
  ⟨by decide +kernel, by decide +kernel, by decide +kernel, closed60_inv, by decide, by decide, by decide⟩

theorem test_witness_FrmExcReturnsCodeAndClass :
    (3 ≤ closed41.cfg.frameMax ∧ trusted closed41 = true ∧ closed41.result = .protocolError ∧
      closed41.fbByte 2 = 0x02#8) ∧
    ¬ (trusted closed31 = true ∧ closed31.result = .protocolError) := by decide +kernel

/-- The last word, the first index past it, the highest index, and a frame that carries no data. -/
theorem test_witness_FrmRegReturnsTheBodyWord :
    (closed31.Inv ∧ trusted closed31 = true ∧ closed31.result = .ok ∧ closed31.cls = .read ∧
      (9#7).toNat < (closed31.fbByte 2).toNat / 2 ∧ (closed31.fbByte 2).toNat / 2 ≤ (10#7).toNat ∧
      (closed31.fbByte 2).toNat / 2 ≤ (127#7).toNat) ∧
    (closed60.Inv ∧ trusted closed60 = true ∧ closed60.result = .ok ∧ closed60.cls = .fixed ∧
      (1#7).toNat < (closed60.len - 4) / 2 ∧ (closed60.len - 4) / 2 ≤ (2#7).toNat) ∧
    ¬ (trusted closed41 = true ∧ closed41.result = .ok) ∧
    (closed31.cfg.lenWriteReply ≤ 259 ∧ closed31.cfg.lenCalibReply ≤ 259 ∧ closed31.cfg.lenResetReply ≤ 259) :=
  ⟨⟨closed31_inv, by decide +kernel⟩, ⟨closed60_inv, by decide +kernel⟩, by decide +kernel, by decide⟩

end Sys2Proof.Tests
end

/-! SUPPORT. The statements of 00_scope.md: a step runs the command at the port (R8), and FB has no
address at or above `FRAME_MAX` (R7). Before them, the decoder on the codes of the encoder. -/

namespace Sys2Proof

/-- An illegal write matches no write row, so it decodes to itself (R75, R153). -/
theorem decodeWrite_of_illegalAccess {a : Byte} {d : Word} (h : illegalAccess true a d = true) :
    decodeWrite a d = .ill true a d := by
  by_cases h00 : a = 0x00#8
  · subst h00
    have hd : d ≠ 0x0001#16 := by simpa [illegalAccess] using h
    simp [decodeWrite, hd]
  by_cases h10 : a = 0x10#8
  · subst h10
    have hd : d ≠ 0x0001#16 ∧ d ≠ 0x0002#16 := by simpa [illegalAccess] using h
    simp [decodeWrite, hd]
  have h01 : a ≠ 0x01#8 := by rintro rfl; simp [illegalAccess] at h
  have h11 : a ≠ 0x11#8 := by rintro rfl; simp [illegalAccess] at h
  have h12 : a ≠ 0x12#8 := by rintro rfl; simp [illegalAccess] at h
  simp only [decodeWrite, h00, h01, h10, h11, h12, if_false]

/-- No read row has an illegal address, whatever the ignored data (R60, R153). -/
theorem decodeRead_of_illegalAccess {a : Byte} {d : Word} (h : illegalAccess false a d = true) :
    decodeRead a d = .ill false a d := by
  have hmiss : ∀ a : Byte, illegalAccess false a 0#16 = true → a.getLsbD 7 = false ∧
      a ∉ [0x02#8, 0x03#8, 0x04#8, 0x12#8, 0x13#8, 0x14#8, 0x15#8, 0x16#8, 0x17#8, 0x18#8, 0x19#8, 0x7F#8] := by
    decide
  have hdata : illegalAccess false a d = illegalAccess false a 0#16 := rfl
  obtain ⟨hflag, hrows⟩ := hmiss a (hdata ▸ h)
  simp only [List.mem_cons, List.not_mem_nil, or_false, not_or] at hrows
  simp only [decodeRead, hrows, hflag, if_false, Bool.false_eq_true]

/-- An address with bit 7 set reads the body word its low seven bits name (R61, R62). -/
theorem decodeRead_register (i : BitVec 7) (d : Word) : decodeRead (1#1 ++ i) d = .frmReg i := by
  have hne : ∀ b : Byte, b.getLsbD 7 = false → (1#1 ++ i : Byte) ≠ b := by
    rintro b hb rfl
    exact Bool.noConfusion ((flag_append i).symm.trans hb)
  simp [decodeRead, hne]

/-- A function code outside R66 selects the row `fc.other` (R76). -/
theorem decodeReqFc_of_not_knownFunction {fc : Byte} (h : knownFunction fc = false) :
    decodeReqFc fc = .fcOther fc := by
  have hne : (((fc ≠ 0x03#8 ∧ fc ≠ 0x04#8) ∧ fc ≠ 0x06#8) ∧ fc ≠ 0x41#8) ∧ fc ≠ 0x42#8 := by
    simpa [knownFunction] using h
  simp [decodeReqFc, hne]

/-- Decoding the code of a well-formed instruction gives it back, with every operand (R60 to R62, R65,
R66). -/
theorem decode_encode {i : Instr} (h : i.wf = true) : decode (encode i) = .ok i := by
  cases i with
  | ill wr a d =>
    cases wr with
    | true => simp [decode, encode, decodeWrite_of_illegalAccess h]
    | false => simp [decode, encode, decodeRead_of_illegalAccess h]
  | fcOther fc => simp [decode, encode, decodeReqFc_of_not_knownFunction (by simpa [Instr.wf] using h)]
  | fcErrorReply c => simp [decode, encode, decodeRxFc]
  | frmReg i => simp [decode, encode, decodeRead_register]
  | crcUpd b => simp [decode, encode, decodeWrite]
  | frmPush b => simp [decode, encode, decodeWrite]
  | frmReq a f => simp [decode, encode, decodeWrite]
  | _ => rfl

/-- A command word that encodes a well-formed instruction decodes to it. -/
theorem decodeCmd_of_encode {i : Instr} {w : CmdWord} (h : i.wf = true) (he : encode i = .cmd w) :
    decodeCmd w = i := by
  have hd := decode_encode h
  rw [he] at hd
  exact Except.ok.inj hd

namespace Machine

/-- A selected bus cycle runs the command its word decodes to, past that cycle (R8, R50). -/
theorem step_of_sel {s : State} {c : BusCycle} {rest : List BusCycle} (hp : s.port = c :: rest)
    (hr : c.rst = false) (hs : c.sel = true) :
    step s = exec (decodeCmd c.word) { s with port := rest } := by
  simp [step, hp, busStep, hr, hs]

theorem readFrame_of_gt {s : State} (h : s.cfg.frameMax < s.len) :
    readFrame s = .error (.fbReadOutside s.cfg.frameMax) :=
  if_neg (Nat.not_le_of_lt h)

/-- An open frame longer than FB cannot be read, so it is not closed (R7). -/
theorem closeFrame_outside {k : Layout} {fc : Byte} {s : State} (hd : s.done = false)
    (hl : s.cfg.frameMax < s.len) : closeFrame k fc s = .fault (.fbReadOutside s.cfg.frameMax) := by
  simp [closeFrame, hd, readFrame_of_gt hl]

/-- An open push at a `LEN` past the end of FB has no byte to store to (R7). -/
theorem execFrmPush_outside {b : Byte} {s : State} (hd : s.done = false)
    (hl : s.cfg.frameMax < s.len) : execFrmPush b s = .fault (.fbWriteOutside s.len) := by
  have ht : pushTarget s = some s.len := by simp [pushTarget, hd, Nat.ne_of_gt hl]
  simp [execFrmPush, ht, Nat.lt_asymm hl]

/-- Settles O1: a selected cycle runs the decode of its word, and the decoder inverts the encoder. -/
theorem stepRunsBusCommand : Obligations.StepRunsBusCommand := by
  intro s c rest hp hr hs
  have hstep := step_of_sel hp hr hs
  refine ⟨hstep, fun i hi he => ?_⟩
  rw [hstep, BusCycle.word, decodeCmd_of_encode hi he]

/-- Settles O16: both accesses are at or above `FRAME_MAX` when `LEN` is past it. -/
theorem accessOutsideBufferFaults : Obligations.AccessOutsideBufferFaults := by
  intro s hd hl
  exact ⟨fun _ => execFrmPush_outside hd hl, closeFrame_outside hd hl⟩

end Machine

end Sys2Proof

/-! SUPPORT. The statements of 10_state.md: the invariant of R30 holds at reset and every command and step
keeps it; bytes of FB at or above `LEN` are never read; what each command does to `CRC`, `ILL` and FB. -/

namespace Sys2Proof

namespace Machine

/-! ## The invariant of an open frame -/

/-- The two states agree on every element the invariant speaks of. -/
def State.sameFrame (s t : State) : Prop :=
  t = { s with
    crc := t.crc, reqAddr := t.reqAddr, reqFc := t.reqFc, ill := t.ill, port := t.port,
    ready := t.ready, rdata := t.rdata }

theorem State.Inv.of_sameFrame {s t : State} (h : s.Inv) (hst : s.sameFrame t) : t.Inv := by
  rw [hst]
  exact { h with buffer := { h.buffer with } }

/-- While the frame is open nothing is latched, so the items of R30 on verdicts hold of themselves. -/
theorem State.Inv.of_open {s : State} (hcfg : s.cfg.wf) (hbuf : s.BufferInv) (hlen : s.len ≤ s.cfg.frameMax)
    (hrx : s.rxcrc = crc16 s.frame) (hovr : s.ovr = true → s.len = s.cfg.frameMax) (hd : s.done = false)
    (hclear : s.result = .none ∧ s.crcOk = false ∧ s.cls = .raw ∧ s.amatch = false ∧ s.fmatch = false ∧
      s.stale = false) : s.Inv := by
  obtain ⟨hres, -, -, ham, hfm, -⟩ := id hclear
  exact {
    cfg_wf := hcfg
    buffer := hbuf
    len_le := hlen
    rxcrc_eq := hrx
    open_clear := fun _ => hclear
    closed_verdict := by simp [hd]
    ovr_full := hovr
    passed_crc := by simp [hres, passed]
    error_reply := by simp [hres]
    raw_verdict := by simp [hd]
    crcOk_eq := by simp [hd]
    read_length := by simp [hres]
    fixed_length := by simp [hres]
    match_trusted := by simp [ham, hfm] }

/-- Taking a bus cycle off the port touches no element of the block. -/
theorem State.Inv.setPort {s : State} (h : s.Inv) (rest : List BusCycle) : State.Inv { s with port := rest } :=
  h.of_sameFrame rfl

theorem State.inv_reset : State.reset.Inv :=
  .of_open (by decide) ⟨Memory.wf_reset, by simp [State.reset], by simp [State.reset]⟩ (by decide) rfl
    (by simp [State.reset]) rfl ⟨rfl, rfl, rfl, rfl, rfl, rfl⟩

theorem State.Inv.clearFrame {s : State} (h : s.Inv) : s.clearFrame.Inv :=
  .of_open h.cfg_wf { h.buffer with written := fun _ ha => absurd ha (Nat.not_lt_zero _) } (Nat.zero_le _) rfl
    (by simp) rfl ⟨rfl, rfl, rfl, rfl, rfl, rfl⟩

/-- Reset leaves what `frm.start` leaves in every element of the frame (R31). -/
theorem State.Inv.applyReset {s : State} (h : s.Inv) : s.applyReset.Inv := h.clearFrame.of_sameFrame rfl

theorem crc16_append_singleton (f : List Byte) (b : Byte) : crc16 (f ++ [b]) = crcByte (crc16 f) b :=
  List.foldl_append

theorem State.BufferInv.store {s : State} (h : s.BufferInv) (hl : s.len < s.cfg.frameMax) (b : Byte) :
    (s.store b).BufferInv where
  canonical := Memory.wf_write _ _ h.canonical
  inside c hc := by
    rcases Memory.mem_write hc with rfl | hc
    · exact hl
    · exact h.inside c hc
  written a ha := by
    by_cases hal : a = s.len
    · simp [hal, Memory.lookup_write_same]
    · have hold : a < s.len := by simp only [State.store_len] at ha; omega
      simpa [Memory.lookup_write_other _ _ _ _ hal] using h.written a hold

/-- An accepted push (R114); a full FB, the only one with `OVR = 1`, accepts none. -/
theorem State.Inv.store {s : State} (h : s.Inv) (hd : s.done = false) (hl : s.len < s.cfg.frameMax)
    (b : Byte) : (s.store b).Inv := by
  refine .of_open h.cfg_wf (h.buffer.store hl b) hl ?_ (fun ho => ?_) hd (h.open_clear hd)
  · simp [crc16_append_singleton, h.rxcrc_eq]
  · exact absurd (h.ovr_full ho) (Nat.ne_of_lt hl)

theorem State.Inv.setOvr {s : State} (h : s.Inv) (hl : s.len = s.cfg.frameMax) (hd : s.done = false) :
    s.setOvr.Inv :=
  .of_open h.cfg_wf { h.buffer with } h.len_le h.rxcrc_eq (fun _ => hl) hd (h.open_clear hd)

/-- A push to a closed frame leaves its mark in `STALE`, which only an open frame holds at 0 (R114). -/
theorem State.Inv.setStale {s : State} (h : s.Inv) (hd : s.done = true) : s.setStale.Inv :=
  { h with buffer := { h.buffer with }, open_clear := by simp [hd] }

/-! ## The verdict of a closed frame (R117) -/

theorem headerVerdict_ne_none (k : Layout) (f : List Byte) (ovr v : Bool) : headerVerdict k f ovr v ≠ .none := by
  unfold headerVerdict
  split
  · split_ifs <;> simp [errorVerdict_ne_none]
  · simp

theorem verdict_ne_none (k : Layout) (f : List Byte) (ovr v : Bool) : verdict k f ovr v ≠ .none := by
  cases k with
  | raw => cases v <;> simp [verdict]
  | read => exact headerVerdict_ne_none _ _ _ _
  | fixed l => exact headerVerdict_ne_none _ _ _ _

theorem verdict_raw_cases (f : List Byte) (ovr v : Bool) :
    verdict .raw f ovr v = .ok ∨ verdict .raw f ovr v = .corruptFrame := by
  cases v <;> simp [verdict]

theorem crcVerdict_eq_true {ovr : Bool} {f : List Byte} (h : crcVerdict ovr f = true) : ovr = false := by
  simp_all [crcVerdict]

/-- A frame that passes carries a good CRC and did not overflow (R115). -/
theorem verdict_passed_crc {k : Layout} {f : List Byte} {ovr : Bool}
    (h : passed (verdict k f ovr (crcVerdict ovr f)) = true) : crcVerdict ovr f = true ∧ ovr = false := by
  have hcrc : crcVerdict ovr f = true := by
    by_cases hk : k = .raw
    · subst hk
      by_contra hv
      simp [verdict, hv, passed] at h
    · rw [verdict_of_ne_raw hk] at h
      obtain ⟨-, -, -, -, -, -, hv, -⟩ := headerVerdict_passed h
      exact hv
  exact ⟨hcrc, crcVerdict_eq_true hcrc⟩

/-- Only the error-reply layout gives `PROTOCOL_ERROR` (R117 step 5e). -/
theorem verdict_protocolError {k : Layout} {f : List Byte} {ovr v : Bool}
    (h : verdict k f ovr v = .protocolError) :
    k ≠ .raw ∧ f.length = 5 ∧ ∃ f1, f[1]? = some f1 ∧ errorFlag f1 = true := by
  have hk : k ≠ .raw := by
    rintro rfl
    rcases verdict_raw_cases f ovr v with h' | h' <;> simp [h'] at h
  rw [verdict_of_ne_raw hk] at h
  obtain ⟨f0, f1, f2, rest, rfl, -, -, ⟨herr, hlen, -⟩ | ⟨-, -, hok⟩⟩ :=
    headerVerdict_passed (congrArg passed h)
  · exact ⟨hk, hlen, f1, rfl, herr⟩
  · simp [hok] at h

/-- A frame of a class that reads headers is `OK` only at the length its layout asks for (R117 steps 3r
and 3f). -/
theorem verdict_ok_lengthFits {k : Layout} {f : List Byte} {ovr v : Bool} (hk : k ≠ .raw)
    (h : verdict k f ovr v = .ok) : ∃ f2, f[2]? = some f2 ∧ lengthFits k f.length f2 = true := by
  rw [verdict_of_ne_raw hk] at h
  obtain ⟨f0, f1, f2, rest, rfl, -, -, ⟨-, -, herr⟩ | ⟨-, hfits, -⟩⟩ :=
    headerVerdict_passed (congrArg passed h)
  · simp [herr] at h
  · exact ⟨f2, rfl, hfits⟩

theorem State.fbByte_of_frame {s : State} {a : Nat} {b : Byte} (h : s.frame[a]? = some b) : s.fbByte a = b := by
  obtain ⟨hlt, -⟩ := List.getElem?_eq_some_iff.mp h
  rw [State.frame_length] at hlt
  exact Option.some.inj ((s.frame_getElem? a hlt).symm.trans h)

theorem goodFrame_of_match {good : Bool} {f0 f1 : Option Byte} {a fc : Byte}
    (h : amatchOf good f0 a = true ∨ fmatchOf good f1 fc = true) : good = true := by
  rcases h with h | h
  · exact (Bool.and_eq_true_iff.mp h).1
  · exact (Bool.and_eq_true_iff.mp h).1

/-- Closing an open frame (R115) by a layout whose fixed length, if it has one, is one of R73's. -/
theorem State.Inv.latch {s : State} (h : s.Inv) {k : Layout} (fc : Byte)
    (hk : ∀ l, k = .fixed l → l = s.cfg.lenWriteReply ∨ l = s.cfg.lenCalibReply ∨ l = s.cfg.lenResetReply) :
    (s.latch k fc s.frame[0]? s.frame[1]? (verdict k s.frame s.ovr (crcVerdict s.ovr s.frame))
      (crcVerdict s.ovr s.frame)).Inv where
  cfg_wf := h.cfg_wf
  buffer := { h.buffer with }
  len_le := h.len_le
  rxcrc_eq := h.rxcrc_eq
  open_clear := by simp
  closed_verdict _ := verdict_ne_none _ _ _ _
  ovr_full := h.ovr_full
  passed_crc := verdict_passed_crc
  error_reply hr := by
    obtain ⟨hraw, hlen, f1, hf1, herr⟩ := verdict_protocolError hr
    refine ⟨s.frame_length.symm.trans hlen, ?_, by simpa using hraw⟩
    exact (State.fbByte_of_frame hf1).symm ▸ herr
  raw_verdict _ hc := by
    obtain rfl : k = .raw := (classOfLayout_eq_raw k).mp hc
    exact verdict_raw_cases s.frame s.ovr (crcVerdict s.ovr s.frame)
  crcOk_eq _ := rfl
  read_length hr hc := by
    rw [State.latch_result] at hr
    obtain rfl : k = .read := (classOfLayout_eq_read k).mp hc
    obtain ⟨f2, hf2, hfits⟩ := verdict_ok_lengthFits (by simp) hr
    have hbyte : s.fbByte 2 = f2 := State.fbByte_of_frame hf2
    have hint : ((s.fbByte 2).toNat : Int) = (s.len : Int) - 5 := by simpa [lengthFits, hbyte] using hfits
    change s.len = 5 + (s.fbByte 2).toNat
    omega
  fixed_length hr hc := by
    rw [State.latch_result] at hr
    obtain ⟨l, rfl⟩ := (classOfLayout_eq_fixed k).mp hc
    obtain ⟨f2, -, hfits⟩ := verdict_ok_lengthFits (by simp) hr
    have hlen : s.len = l := by simpa [lengthFits] using hfits
    exact hlen ▸ hk l rfl
  match_trusted hm := goodFrame_of_match hm

/-! ## Every command keeps the invariant -/

/-- A FIXED layout of any closing row has one of the three parameter lengths (R111). -/
theorem layout_fixed_length {i : Instr} {s : State} {l : Nat} {fc : Byte}
    (h : i.layout s = some (.fixed l, fc)) :
    l = s.cfg.lenWriteReply ∨ l = s.cfg.lenCalibReply ∨ l = s.cfg.lenResetReply := by
  cases i with
  | frmEnd => exact classOf_fixed (congrArg Prod.fst (Option.some.inj h))
  | fcWriteSingle => cases h; exact .inl rfl
  | fcCalibration => cases h; exact .inr (.inl rfl)
  | fcResetEnergy => cases h; exact .inr (.inr rfl)
  | _ => cases h

/-- Under an error code a header is judged by steps 1, 2 and 3e to 5e of R117, whatever the class. -/
theorem headerVerdict_of_errorFlag {f : List Byte} {f1 : Byte} (k : Layout) (ovr v : Bool)
    (h : f[1]? = some f1) (herr : errorFlag f1 = true) :
    headerVerdict k f ovr v =
      if f.length < 3 then .truncated else if ovr then .lengthMismatch else errorVerdict f.length v := by
  match f, h with
  | [_, _], _ => rfl
  | f0 :: g1 :: f2 :: rest, h =>
    obtain rfl : g1 = f1 := Option.some.inj h
    simp [headerVerdict, herr]

/-- The row `fc.error_reply` judges a frame that carries an error code as `frm.end` does (R65, R117). -/
theorem errorReplyVerdict_eq_verdict {f : List Byte} {f1 : Byte} (k : Layout) (ovr v : Bool)
    (h : f[1]? = some f1) (herr : errorFlag f1 = true) :
    errorReplyVerdict k f.length ovr v = verdict k f ovr v := by
  cases k with
  | raw => rfl
  | read => exact (headerVerdict_of_errorFlag _ ovr v h herr).symm
  | fixed l => exact (headerVerdict_of_errorFlag _ ovr v h herr).symm

theorem errorFlag_errorCodeByte (c : BitVec 7) : errorFlag (errorCodeByte c) = true := flag_append c

/-- Every instruction keeps the invariant (R30); a code that `fc.error_reply` runs on is the frame's own. -/
theorem State.Inv.of_exec {i : Instr} {s t : State} (h : s.Inv) (he : exec i s = .next t)
    (hcode : ∀ c, i = .fcErrorReply c → s.frame[1]? = some (errorCodeByte c)) : t.Inv := by
  cases exec_effect he with
  | init | upd | answer | request | closed | illWrite | illRead => exact h.of_sameFrame rfl
  | start => exact h.clearFrame.of_sameFrame rfl
  | stale b hi hd => exact (h.setStale hd).of_sameFrame rfl
  | overflow b hi hd hl => exact (h.setOvr hl hd).of_sameFrame rfl
  | store b hi hd hl => exact (h.store hd hl b).of_sameFrame rfl
  | close k fc hk hd hl =>
    refine (h.latch (k := k) fc fun l hl => ?_).of_sameFrame rfl
    subst hl
    exact layout_fixed_length hk
  | closeError c hi hd hl =>
    have hf1 := hcode c hi
    rw [errorReplyVerdict_eq_verdict _ _ _ hf1 (errorFlag_errorCodeByte c), ← hf1]
    exact (h.latch s.reqFc fun l => classOf_fixed).of_sameFrame rfl

/-- A command word never decodes to a function-code row. -/
theorem decodeCmd_ne_fcErrorReply (w : CmdWord) (c : BitVec 7) : decodeCmd w ≠ .fcErrorReply c := fun h =>
  Bool.noConfusion ((congrArg Instr.isCommand h).symm.trans (decodeCmd_isCommand w))

/-- Every step keeps the invariant (R30). -/
theorem State.Inv.of_step {s t : State} (h : s.Inv) (hs : step s = .next t) : t.Inv := by
  rcases step_cases hs with ⟨-, rfl⟩ | ⟨c, rest, -, ⟨-, rfl⟩ | ⟨-, -, he⟩ | ⟨-, -, rfl⟩⟩
  · exact h.of_sameFrame rfl
  · exact (h.setPort rest).applyReset
  · exact (h.setPort rest).of_exec he fun code hc => absurd hc (decodeCmd_ne_fcErrorReply _ _)
  · exact h.of_sameFrame rfl

/-- Settles O6: a step is idle, a reset, or a command, and each keeps the invariant. -/
theorem invariantKeptByStep : Obligations.InvariantKeptByStep := fun _ _ h hs => h.of_step hs

/-- Settles O7: each shape of a next state keeps the invariant. -/
theorem invariantKeptByEveryCommand : Obligations.InvariantKeptByEveryCommand := fun _ _ _ h he hcode =>
  h.of_exec he hcode

/-- Settles O4: the three commands run, and their result is the table. -/
theorem resetStateIsTableR31 : Obligations.ResetStateIsTableR31 :=
  ⟨⟨rfl, rfl, rfl, rfl, rfl, rfl, rfl, rfl, rfl, rfl, rfl, rfl, rfl, rfl⟩,
    fun _ => ⟨_, _, _, rfl, rfl, rfl, rfl⟩⟩

/-- Settles O5: FB is empty and the frame is open at reset. -/
theorem invariantHoldsAtReset : Obligations.InvariantHoldsAtReset := State.inv_reset

end Machine

end Sys2Proof

namespace Sys2Proof

/-! ## What an instruction makes of `CRC`, `ILL` and FB -/

/-- `CRC` after the instruction: only `crc.init` and `crc.upd` write it (R100, R101). -/
def Instr.crcAfter : Instr → Word → Word
  | .crcInit, _ => Sys2Proof.crcInit
  | .crcUpd b, c => Machine.crcByte c b
  | _, c => c

/-- `ILL` after the instruction: only `ill` writes it (R153). -/
def Instr.illAfter : Instr → Bool → Bool
  | .ill _ _ _, _ => true
  | _, b => b

/-- FB after the instruction: only an accepted push stores (R151). -/
def Instr.fbAfter (s : Machine.State) : Instr → Machine.Memory → Machine.Memory
  | .frmPush b, m => (Machine.pushTarget s).elim m fun a => Machine.Memory.write m a b
  | _, m => m

theorem Instr.crcAfter_of_not_gen {i : Instr} (h : i.isGen = false) (c : Word) : i.crcAfter c = c := by
  cases i with
  | crcInit | crcUpd => cases h
  | _ => rfl

theorem Instr.crcAfter_of_reads {i : Instr} (h : i.reads = true) (c : Word) : i.crcAfter c = c := by
  cases i with
  | crcInit | crcUpd => cases h
  | _ => rfl

theorem Instr.illAfter_of_ne {i : Instr} (h : ∀ wr a d, i ≠ .ill wr a d) (b : Bool) : i.illAfter b = b := by
  cases i with
  | ill wr a d => exact absurd rfl (h wr a d)
  | _ => rfl

theorem Instr.illAfter_eq_true (i : Instr) (b : Bool) :
    i.illAfter b = true ↔ b = true ∨ ∃ wr a d, i = .ill wr a d := by
  cases i <;> simp [Instr.illAfter]

theorem Instr.ne_ill_of_reads {i : Instr} (h : i.reads = true) (wr : Bool) (a : Byte) (d : Word) :
    i ≠ .ill wr a d := by
  rintro rfl
  cases h

theorem Instr.isGen_of_isChk {i : Instr} (h : i.isChk = true) : i.isGen = false := by
  cases i with
  | crcInit | crcUpd | crcRd | crcRdlo | crcRdhi => cases h
  | _ => rfl

theorem Instr.ne_ill_of_isChk {i : Instr} (h : i.isChk = true) (wr : Bool) (a : Byte) (d : Word) :
    i ≠ .ill wr a d := by
  rintro rfl
  cases h

namespace Machine

theorem fbAfter_of_reads {i : Instr} (h : i.reads = true) (s : State) (m : Memory) : i.fbAfter s m = m := by
  cases i with
  | frmPush => cases h
  | _ => rfl

/-- Where the instruction stores no byte, it leaves the byte as it was. -/
theorem byteAt_fbAfter_other {i : Instr} {s : State} {a : Nat}
    (h : ∀ b, i = .frmPush b → pushTarget s ≠ some a) (m : Memory) :
    Memory.byteAt (i.fbAfter s m) a = Memory.byteAt m a := by
  cases i with
  | frmPush b =>
    have hne := h b rfl
    simp only [Instr.fbAfter]
    cases ht : pushTarget s with
    | none => rfl
    | some x => exact Memory.byteAt_write_other _ _ _ _ fun hax => hne (hax ▸ ht)
  | _ => rfl

/-- Where it stores one, the byte is the pushed one. -/
theorem byteAt_fbAfter_target {s : State} {a : Nat} (h : pushTarget s = some a) (b : Byte) (m : Memory) :
    Memory.byteAt (Instr.fbAfter s (.frmPush b) m) a = b := by
  simp [Instr.fbAfter, h]

/-- The instruction keeps the agreement of two buffers, and makes one at the address it stores to. -/
theorem byteAt_fbAfter_congr {i : Instr} {s : State} {a : Nat} {m n : Memory}
    (h : Memory.byteAt m a = Memory.byteAt n a ∨ ∃ b, i = .frmPush b ∧ pushTarget s = some a) :
    Memory.byteAt (i.fbAfter s m) a = Memory.byteAt (i.fbAfter s n) a := by
  by_cases hstore : ∃ b, i = .frmPush b ∧ pushTarget s = some a
  · obtain ⟨b, rfl, ht⟩ := hstore
    rw [byteAt_fbAfter_target ht, byteAt_fbAfter_target ht]
  · have hother : ∀ b, i = .frmPush b → pushTarget s ≠ some a := fun b hi ht => hstore ⟨b, hi, ht⟩
    rw [byteAt_fbAfter_other hother, byteAt_fbAfter_other hother]
    exact h.resolve_right hstore

/-! ## The value of a read -/

/-- The value an instruction that only reads returns. -/
def readValue (s : State) : Instr → Except Fault Word
  | .crcRd => .ok s.crc
  | .crcRdlo => .ok (zext16 (lowByte s.crc))
  | .crcRdhi => .ok (zext16 (highByte s.crc))
  | .frmRdreq => .ok (beWord s.reqAddr s.reqFc)
  | .frmStat => .ok (statWord s)
  | .frmLen => .ok (BitVec.ofNat 16 s.len)
  | .frmHdr => if trusted s then memRead2 s 0 else .ok 0#16
  | .frmInfo => (infoFields s).map fun p => infoWord p.1 p.2
  | .frmExc => if trusted s && decide (s.result = .protocolError) then (memRead s 2).map excWord else .ok 0#16
  | .frmRemain => (readHeader s).map fun h =>
      BitVec.ofNat 16 (expectTotal (classOf s.cfg s.reqFc) s.len h - s.len)
  | .frmRxcrc => .ok s.rxcrc
  | .sysStat => .ok ((BitVec.ofBool s.ill).setWidth 16)
  | .frmReg i => (infoFields s).bind fun p =>
      if trusted s && decide (s.result = .ok) && decide (i.toNat < p.1) then
        memRead2 s (bodyBase s.cls + 2 * i.toNat)
      else .ok 0#16
  | _ => .ok 0#16

/-- A reading instruction answers its value and does nothing else. -/
theorem exec_of_reads {i : Instr} (h : i.reads = true) (s : State) :
    exec i s = answerRead s (readValue s i) := by
  cases i with
  | frmHdr =>
    simp only [exec, execFrmHdr, readValue]
    split <;> rfl
  | frmExc =>
    simp only [exec, execFrmExc, readValue]
    split <;> rfl
  | frmReg k =>
    simp only [exec, execFrmReg, readValue]
    cases infoFields s with
    | error e => rfl
    | ok p =>
      simp only [Except.bind]
      split <;> rfl
  | crcRd | crcRdlo | crcRdhi | frmRdreq | frmStat | frmLen | frmInfo | frmRemain | frmRxcrc | sysStat => rfl
  | _ => cases h

/-! ## The rest of the state goes its way whatever `CRC`, `ILL` and the bytes above `LEN` hold -/

/-- The state with other values of the three elements. -/
def State.withParts (s : State) (c : Word) (b : Bool) (m : Memory) : State :=
  { s with crc := c, ill := b, fb := m }

theorem pushTarget_of_done {s : State} (hd : s.done = true) : pushTarget s = none := by
  simp [pushTarget, hd]

theorem pushTarget_of_full {s : State} (hl : s.len = s.cfg.frameMax) : pushTarget s = none := by
  simp [pushTarget, hl]

theorem pushTarget_of_lt {s : State} (hd : s.done = false) (hl : s.len < s.cfg.frameMax) :
    pushTarget s = some s.len := by
  simp [pushTarget, hd, Nat.ne_of_lt hl]

theorem execFrmPush_withParts {s t : State} (c : Word) (b : Bool) (m : Memory) {x : Byte}
    (h : execFrmPush x s = .next t) :
    execFrmPush x (s.withParts c b m) = .next (t.withParts c b (Instr.fbAfter s (.frmPush x) m)) := by
  rcases execFrmPush_next h with ⟨hd, rfl⟩ | ⟨hd, hl, rfl⟩ | ⟨hd, hl, rfl⟩
  · rw [execFrmPush_done (s := s.withParts c b m) hd, Instr.fbAfter, pushTarget_of_done hd]
    rfl
  · rw [execFrmPush_full (s := s.withParts c b m) hd hl, Instr.fbAfter, pushTarget_of_full hl]
    rfl
  · rw [execFrmPush_store (s := s.withParts c b m) hd hl, Instr.fbAfter, pushTarget_of_lt hd hl]
    rfl

section
variable {s t : State} {m : Memory} (c : Word) (b : Bool) (hm : ∀ a, a < s.len → s.fbByte a = Memory.byteAt m a)
include hm

theorem frame_withParts : (s.withParts c b m).frame = s.frame :=
  (State.frame_congr (s := s) (t := s.withParts c b m) rfl hm).symm

theorem closeFrame_withParts {k : Layout} {fc : Byte} (h : closeFrame k fc s = .next t) :
    closeFrame k fc (s.withParts c b m) = .next (t.withParts c b m) := by
  rcases closeFrame_next h with ⟨hd, rfl⟩ | ⟨hd, hl, rfl⟩
  · exact closeFrame_done hd
  · rw [closeFrame_open (s := s.withParts c b m) hd hl, frame_withParts c b hm]
    rfl

theorem closeErrorReply_withParts {k : Layout} {e : BitVec 7} (h : closeErrorReply k e s = .next t) :
    closeErrorReply k e (s.withParts c b m) = .next (t.withParts c b m) := by
  rcases closeErrorReply_next h with ⟨hd, rfl⟩ | ⟨hd, hl, rfl⟩
  · exact closeErrorReply_done hd
  · rw [closeErrorReply_open (s := s.withParts c b m) hd hl, frame_withParts c b hm]
    rfl

/-- The simulation: two states that differ in `CRC`, in `ILL` and in FB at or above `LEN` run an instruction
alike, a read where it returns the same value from both. -/
theorem exec_withParts {i : Instr} (h : exec i s = .next t)
    (hread : i.reads = true → readValue (s.withParts c b m) i = readValue s i) :
    exec i (s.withParts c b m) = .next (t.withParts (i.crcAfter c) (i.illAfter b) (i.fbAfter s m)) := by
  by_cases hr : i.reads = true
  · rw [exec_of_reads hr] at h
    obtain ⟨v, hv, rfl⟩ := answerRead_next h
    rw [exec_of_reads hr, hread hr, hv, Instr.crcAfter_of_reads hr,
      Instr.illAfter_of_ne (Instr.ne_ill_of_reads hr), fbAfter_of_reads hr]
    rfl
  · cases i with
    | crcInit | crcUpd | frmStart | frmReq => cases h; rfl
    | ill wr a d => cases wr <;> cases h <;> rfl
    | frmPush x => exact execFrmPush_withParts c b m h
    | frmEnd | fcReadHolding | fcReadInput | fcWriteSingle | fcCalibration | fcResetEnergy | fcOther =>
      exact closeFrame_withParts c b hm h
    | fcErrorReply e => exact closeErrorReply_withParts c b hm h
    | _ => exact absurd rfl hr
end

/-- What an instruction makes of the three elements. -/
theorem exec_parts {i : Instr} {s t : State} (h : exec i s = .next t) :
    t.crc = i.crcAfter s.crc ∧ t.ill = i.illAfter s.ill ∧ t.fb = i.fbAfter s s.fb := by
  have hself := exec_withParts s.crc s.ill (m := s.fb) (fun _ _ => rfl) h (fun _ => rfl)
  have ht : t = t.withParts (i.crcAfter s.crc) (i.illAfter s.ill) (i.fbAfter s s.fb) :=
    Host.Outcome.next.inj (h.symm.trans hself)
  exact ⟨congrArg State.crc ht, congrArg State.ill ht, congrArg State.fb ht⟩

theorem exec_withFb {i : Instr} {s t : State} {m : Memory} (h : exec i s = .next t)
    (hm : ∀ a, a < s.len → s.fbByte a = Memory.byteAt m a)
    (hread : readValue { s with fb := m } i = readValue s i) :
    exec i { s with fb := m } = .next { t with fb := i.fbAfter s m } := by
  have hsim := exec_withParts s.crc s.ill hm h fun _ => hread
  obtain ⟨hcrc, hill, -⟩ := exec_parts h
  rwa [← hcrc, ← hill] at hsim

/-- `ILL` changes nothing but itself and what `sys.stat` returns (R22). -/
theorem exec_withIll {i : Instr} {s t : State} (h : exec i s = .next t) (hi : i ≠ .sysStat) (b : Bool) :
    exec i { s with ill := b } = .next { t with ill := i.illAfter b } := by
  have hread : readValue { s with ill := b } i = readValue s i := by
    cases i with
    | sysStat => exact absurd rfl hi
    | _ => rfl
  have hsim := exec_withParts s.crc b (m := s.fb) (fun _ _ => rfl) h fun _ => hread
  obtain ⟨hcrc, -, hfb⟩ := exec_parts h
  rwa [← hcrc, ← hfb] at hsim

/-- `CRC` changes nothing of an instruction outside unit GEN (R10). -/
theorem exec_withCrc {i : Instr} {s t : State} (h : exec i s = .next t) (hi : i.isGen = false) (c : Word) :
    exec i { s with crc := c } = .next { t with crc := c } := by
  have hread : readValue { s with crc := c } i = readValue s i := by
    cases i with
    | crcRd | crcRdlo | crcRdhi => cases hi
    | _ => rfl
  have hsim := exec_withParts c s.ill (m := s.fb) (fun _ _ => rfl) h fun _ => hread
  obtain ⟨-, hill, hfb⟩ := exec_parts h
  rwa [← hill, ← hfb, Instr.crcAfter_of_not_gen hi] at hsim

/-! ## Reads stay below `LEN` (R31, 93 X1) -/

/-- A trusted frame has a header and a CRC (R146). -/
theorem State.Inv.four_le_len {s : State} (h : s.Inv) (ht : trusted s = true) : 4 ≤ s.len := by
  obtain ⟨-, hwrite, hcalib, hreset, -⟩ := h.cfg_wf
  simp only [trusted, Bool.and_eq_true, decide_eq_true_eq] at ht
  obtain ⟨⟨-, hcls⟩, hpass⟩ := ht
  cases hres : s.result with
  | ok =>
    cases hc : s.cls with
    | raw => exact absurd hc hcls
    | read => have := h.read_length hres hc; omega
    | fixed => have := h.fixed_length hres hc; omega
  | protocolError => have := (h.error_reply hres).1; omega
  | none | truncated | lengthMismatch | corruptFrame => simp [hres, passed] at hpass

/-- A body word in range lies before the CRC bytes (R150). -/
theorem State.Inv.body_before_crc {s : State} (h : s.Inv) {p : Nat × Byte} {i : Nat} (hp : infoFields s = .ok p)
    (hi : i < p.1) : bodyBase s.cls + 2 * i + 1 < s.len - 2 := by
  obtain ⟨hmax, -⟩ := h.cfg_wf
  rw [infoFields_cases s (by omega)] at hp
  obtain rfl := Except.ok.inj hp
  split at hi
  · next hread =>
    simp only [Bool.and_eq_true, decide_eq_true_eq] at hread
    obtain ⟨⟨-, hok⟩, hc⟩ := hread
    have hlen := h.read_length hok hc
    simp only [bodyBase, hc, if_true]
    omega
  · split at hi
    · next hfixed =>
      simp only [Bool.and_eq_true, decide_eq_true_eq] at hfixed
      obtain ⟨-, hc⟩ := hfixed
      simp only [bodyBase, hc, reduceCtorEq, if_false]
      omega
    · exact absurd hi (Nat.not_lt_zero _)

section
variable {s : State} {m : Memory} (hm : ∀ a, a < s.len → s.fbByte a = Memory.byteAt m a)
include hm

theorem memRead_withFb {a : Nat} (ha : a < s.len) : memRead { s with fb := m } a = memRead s a := by
  have hbyte : State.fbByte { s with fb := m } a = s.fbByte a := (hm a ha).symm
  simp only [memRead, hbyte]

theorem memRead2_withFb {a : Nat} (ha : a + 1 < s.len) : memRead2 { s with fb := m } a = memRead2 s a := by
  simp only [memRead2, memRead_withFb hm ha, memRead_withFb hm (Nat.lt_of_succ_lt ha)]

theorem readHeader_withFb : readHeader { s with fb := m } = readHeader s := by
  by_cases hl : s.len < 3
  · rw [readHeader_of_lt hl, readHeader_of_lt (s := { s with fb := m }) hl]
  · simp only [readHeader, memRead_withFb hm (a := 1) (by omega), memRead_withFb hm (a := 2) (by omega)]

theorem infoFields_withFb (h : s.Inv) : infoFields { s with fb := m } = infoFields s := by
  by_cases ht : trusted s = true
  · have hlen := h.four_le_len ht
    simp only [infoFields, memRead_withFb hm (a := 2) (by omega)]
    rfl
  · have hf : trusted s = false := by simpa using ht
    rw [infoFields_of_not_trusted hf, infoFields_of_not_trusted (s := { s with fb := m }) hf]

/-- From a state of the invariant no read returns anything of a byte at or above `LEN`. -/
theorem readValue_withFb (h : s.Inv) (i : Instr) : readValue { s with fb := m } i = readValue s i := by
  have htrust : trusted { s with fb := m } = trusted s := rfl
  cases i with
  | frmHdr =>
    simp only [readValue, htrust]
    refine if_ctx_congr Iff.rfl (fun ht => ?_) fun _ => rfl
    exact memRead2_withFb hm (by have := h.four_le_len ht; omega)
  | frmExc =>
    simp only [readValue, htrust]
    refine if_ctx_congr Iff.rfl (fun ht => ?_) fun _ => rfl
    have hlen := h.four_le_len (Bool.and_eq_true_iff.mp ht).1
    rw [memRead_withFb hm (by omega)]
  | frmInfo => simp only [readValue, infoFields_withFb hm h]
  | frmRemain => simp only [readValue, readHeader_withFb hm]
  | frmReg k =>
    simp only [readValue, infoFields_withFb hm h, htrust]
    cases hp : infoFields s with
    | error e => rfl
    | ok p =>
      refine if_ctx_congr Iff.rfl (fun hk => ?_) fun _ => rfl
      have hin := h.body_before_crc hp (of_decide_eq_true (Bool.and_eq_true_iff.mp hk).2)
      exact memRead2_withFb hm (by omega)
  | _ => rfl
end

/-- A byte below `LEN` after an instruction was below it before, or the instruction stored it. -/
theorem exec_lt_len {i : Instr} {s t : State} (h : exec i s = .next t) {a : Nat} (ha : a < t.len) :
    a < s.len ∨ ∃ b, i = .frmPush b ∧ pushTarget s = some a := by
  cases exec_effect h with
  | start => exact absurd ha (Nat.not_lt_zero a)
  | store b hi hd hl =>
    rcases Nat.lt_succ_iff_lt_or_eq.mp ha with hlt | rfl
    · exact .inl hlt
    · exact .inr ⟨b, hi, pushTarget_of_lt hd hl⟩
  | _ => exact .inl ha

/-- Every command reads and keeps the agreement below `LEN` only (R23, R31). -/
theorem exec_agreeBelowLen {i : Instr} {s t s' : State} (h : s.Inv) (hst : s.agreeBelowLen t)
    (he : exec i s = .next s') : ∃ t', exec i t = .next t' ∧ s'.agreeBelowLen t' := by
  obtain ⟨ht, hm⟩ := hst
  refine ⟨{ s' with fb := i.fbAfter s t.fb }, ?_, rfl, fun a ha => ?_⟩
  · rw [ht]
    exact exec_withFb he hm (readValue_withFb hm h i)
  · obtain ⟨-, -, hfb⟩ := exec_parts he
    rw [State.fbByte, hfb]
    exact byteAt_fbAfter_congr ((exec_lt_len he ha).imp_left (hm a))

/-! ## Every instruction completes -/

/-- From a state of the invariant every read has a value. -/
theorem State.Inv.readValue_ok {s : State} (h : s.Inv) (i : Instr) : ∃ v, readValue s i = .ok v := by
  obtain ⟨hmax, -⟩ := h.cfg_wf
  have hle := h.len_le
  cases i with
  | frmHdr =>
    simp only [readValue, memRead2_of_lt (s := s) (a := 0) (by omega)]
    split <;> exact ⟨_, rfl⟩
  | frmExc =>
    simp only [readValue, memRead_of_lt (s := s) (a := 2) (by omega)]
    split <;> exact ⟨_, rfl⟩
  | frmInfo =>
    simp only [readValue, infoFields_cases s (by omega)]
    exact ⟨_, rfl⟩
  | frmRemain =>
    by_cases hl : s.len < 3
    · exact ⟨_, by rw [readValue, readHeader_of_lt hl]; rfl⟩
    · exact ⟨_, by rw [readValue, readHeader_of_ge (by omega) (by omega)]; rfl⟩
  | frmReg k =>
    obtain ⟨p, hp⟩ : ∃ p, infoFields s = .ok p := ⟨_, infoFields_cases s (by omega)⟩
    simp only [readValue, hp, Except.bind]
    split
    · next hk =>
      have hin := h.body_before_crc hp (of_decide_eq_true (Bool.and_eq_true_iff.mp hk).2)
      exact ⟨_, memRead2_of_lt (by omega)⟩
    · exact ⟨_, rfl⟩
  | _ => exact ⟨_, rfl⟩

theorem closeFrame_completes (k : Layout) (fc : Byte) {s : State} (hl : s.len ≤ s.cfg.frameMax) :
    ∃ t, closeFrame k fc s = .next t := by
  cases hd : s.done with
  | true => exact ⟨_, closeFrame_done hd⟩
  | false => exact ⟨_, closeFrame_open hd hl⟩

theorem closeErrorReply_completes (k : Layout) (c : BitVec 7) {s : State} (hl : s.len ≤ s.cfg.frameMax) :
    ∃ t, closeErrorReply k c s = .next t := by
  cases hd : s.done with
  | true => exact ⟨_, closeErrorReply_done hd⟩
  | false => exact ⟨_, closeErrorReply_open hd hl⟩

theorem execFrmPush_completes (b : Byte) {s : State} (hl : s.len ≤ s.cfg.frameMax) :
    ∃ t, execFrmPush b s = .next t := by
  cases hd : s.done with
  | true => exact ⟨_, execFrmPush_done hd⟩
  | false =>
    rcases Nat.eq_or_lt_of_le hl with hfull | hlt
    · exact ⟨_, execFrmPush_full hd hfull⟩
    · exact ⟨_, execFrmPush_store hd hlt⟩

/-- From a state of the invariant every instruction completes (R190). -/
theorem State.Inv.exec_completes {s : State} (h : s.Inv) (i : Instr) : ∃ t, exec i s = .next t := by
  by_cases hr : i.reads = true
  · obtain ⟨v, hv⟩ := h.readValue_ok i
    exact ⟨s.answer v, by rw [exec_of_reads hr, hv]; rfl⟩
  · cases i with
    | frmPush b => exact execFrmPush_completes b h.len_le
    | frmEnd | fcReadHolding | fcReadInput | fcWriteSingle | fcCalibration | fcResetEnergy | fcOther =>
      exact closeFrame_completes _ _ h.len_le
    | fcErrorReply c => exact closeErrorReply_completes _ c h.len_le
    | crcInit | crcUpd | frmStart | frmReq | ill => exact ⟨_, rfl⟩
    | _ => exact absurd rfl hr

/-! ## Steps without a command -/

theorem step_of_port_nil {s : State} (hp : s.port = []) : step s = .next s.idle := by
  simp [step, hp]

theorem step_of_rst {s : State} {c : BusCycle} {rest : List BusCycle} (hp : s.port = c :: rest)
    (hr : c.rst = true) : step s = .next (State.applyReset { s with port := rest }) := by
  simp [step, hp, busStep, hr]

theorem step_of_not_sel {s : State} {c : BusCycle} {rest : List BusCycle} (hp : s.port = c :: rest)
    (hr : c.rst = false) (hs : c.sel = false) : step s = .next (State.idle { s with port := rest }) := by
  simp [step, hp, busStep, hr, hs]

/-! ## The statements -/

/-- The elements outside unit CHK, and the model's own fields but `cfg`, are no part of what CHK shares. -/
theorem State.sameChk_of_eq {s t : State}
    (h : t = { s with crc := t.crc, ill := t.ill, port := t.port, ready := t.ready, rdata := t.rdata }) :
    s.sameChk t := by
  rw [h]
  exact ⟨rfl, rfl, rfl, rfl, rfl, rfl, rfl, rfl, rfl, rfl, rfl, rfl, rfl, rfl⟩

/-- Of all next states only that of `frm.req` has another request, and all are `ready`. -/
theorem exec_keeps_parameters {i : Instr} {s t : State} (he : exec i s = .next t) :
    t.cfg = s.cfg ∧ t.port = s.port ∧ t.ready = true ∧
    ((∀ a f, i ≠ .frmReq a f) → t.reqAddr = s.reqAddr ∧ t.reqFc = s.reqFc) := by
  cases exec_effect he with
  | request a f hi => exact ⟨rfl, rfl, rfl, fun hne => absurd hi (hne a f)⟩
  | _ => exact ⟨rfl, rfl, rfl, fun _ => ⟨rfl, rfl⟩⟩

/-- Settles O9: a command reads FB below `LEN` only; a reset or an idle cycle reads nothing of it. -/
theorem bytesAboveLenAreNeverRead : Obligations.BytesAboveLenAreNeverRead := by
  intro s t s' h hst hs
  obtain ⟨ht, hm⟩ := hst
  have hport : t.port = s.port := by rw [ht]
  rcases step_cases hs with ⟨hp, rfl⟩ | ⟨c, rest, hp, ⟨hr, rfl⟩ | ⟨hr, hsel, he⟩ | ⟨hr, hsel, rfl⟩⟩
  · refine ⟨_, step_of_port_nil (hport.trans hp), ?_, hm⟩
    rw [ht]; rfl
  · refine ⟨_, step_of_rst (hport.trans hp) hr, ?_, fun a ha => absurd ha (Nat.not_lt_zero a)⟩
    rw [ht]; rfl
  · rw [step_of_sel (hport.trans hp) hr hsel]
    refine exec_agreeBelowLen (h.setPort rest) ⟨?_, hm⟩ he
    rw [ht]
  · refine ⟨_, step_of_not_sel (hport.trans hp) hr hsel, ?_, hm⟩
    rw [ht]; rfl

/-- Settles O10: `ILL` becomes 1 by `ill` only, a step that clears it is a reset, and every instruction but
`sys.stat` runs alike with `ILL` flipped. -/
theorem illIsStickyAndInert : Obligations.IllIsStickyAndInert := by
  refine ⟨fun i s t he => ?_, fun s t hs hset hclear => ?_, fun i s t b he hi => ?_, fun s => ?_⟩
  · obtain ⟨-, hill, -⟩ := exec_parts he
    rw [hill, Instr.illAfter_eq_true]
  · rcases step_cases hs with ⟨-, rfl⟩ | ⟨c, rest, hp, ⟨hr, -⟩ | ⟨-, -, he⟩ | ⟨-, -, rfl⟩⟩
    · exact Bool.noConfusion (hset.symm.trans hclear)
    · exact ⟨c, rest, hp, hr⟩
    · obtain ⟨-, hill, -⟩ := exec_parts he
      have hkept : t.ill = true := hill ▸ (Instr.illAfter_eq_true _ _).mpr (.inl hset)
      exact Bool.noConfusion (hkept.symm.trans hclear)
    · exact Bool.noConfusion (hset.symm.trans hclear)
  · exact ⟨_, exec_withIll he hi b⟩
  · cases hb : s.ill <;> simp [exec, execSysStat, State.answer, hb]

/-- Settles O11: a command of GEN touches `CRC` alone and reads `CRC` alone; one of CHK does neither. -/
theorem unitsShareNoState : Obligations.UnitsShareNoState := by
  refine ⟨fun i s t hi he => ?_, fun i s s' t hi hcrc he => ?_, fun i s t c hi he => ?_,
    fun wr a d s t he => ?_⟩
  · cases i with
    | crcInit | crcUpd | crcRd | crcRdlo | crcRdhi => cases he; exact ⟨State.sameChk_of_eq rfl, rfl⟩
    | _ => cases hi
  · cases i with
    | crcInit | crcUpd | crcRd | crcRdlo | crcRdhi =>
      cases he
      exact ⟨_, rfl, by simp [hcrc], by simp [hcrc]⟩
    | _ => cases hi
  · have hgen := Instr.isGen_of_isChk hi
    obtain ⟨hcrc, hill, -⟩ := exec_parts he
    rw [Instr.crcAfter_of_not_gen hgen] at hcrc
    rw [Instr.illAfter_of_ne (Instr.ne_ill_of_isChk hi)] at hill
    exact ⟨hcrc, hill, exec_withCrc he hgen c⟩
  · cases wr <;> cases he <;> exact ⟨State.sameChk_of_eq rfl, rfl, rfl⟩

/-- Settles O13: an accepted push writes its byte at `LEN`; nothing else writes. -/
theorem onlyPushStoresToTheBuffer : Obligations.OnlyPushStoresToTheBuffer := by
  intro i s t he a
  obtain ⟨-, -, hfb⟩ := exec_parts he
  refine ⟨fun b hi ht => ⟨?_, ?_⟩, fun hother => ?_⟩
  · subst hi
    rw [State.fbByte, hfb, byteAt_fbAfter_target ht]
  · subst hi
    obtain ⟨hd, hne, rfl⟩ := pushTarget_eq_some ht
    rcases execFrmPush_next he with ⟨hd', -⟩ | ⟨-, hl, -⟩ | ⟨-, -, rfl⟩
    · exact Bool.noConfusion (hd.symm.trans hd')
    · exact absurd hl hne
    · rfl
  · rw [State.fbByte, hfb, byteAt_fbAfter_other hother]
    rfl

/-- Settles O15: no next state has other parameters, and from the invariant there is a next state. -/
theorem parametersAndRequestKept : Obligations.ParametersAndRequestKept := by
  refine ⟨fun i s t he => exec_keeps_parameters he, fun i s h => ?_⟩
  obtain ⟨t, he⟩ := h.exec_completes i
  obtain ⟨-, -, hready, -⟩ := exec_keeps_parameters he
  exact ⟨t, he, hready⟩

end Machine

end Sys2Proof

/-! SUPPORT. The statements of 20_memory.md: reads are free of side effects (R47), which writes are
idempotent (R47), and the step takes the instruction placed for it (R50). -/

namespace Sys2Proof

/-- A read decodes to a command that only reads, or is illegal (R61, R75). -/
theorem decodeRead_reads_or_ill (a : Byte) (d : Word) :
    (decodeRead a d).reads = true ∨ decodeRead a d = .ill false a d := by
  unfold decodeRead
  iterate 13
    refine iteInduction (motive := fun i : Instr => i.reads = true ∨ i = .ill false a d) (fun _ => .inl rfl)
      fun _ => ?_
  exact .inr rfl

/-- A number of 25 bits is a command word (R60). -/
theorem codeOfNumber_cmd {w : Nat} (h : w < 2 ^ 25) : codeOfNumber 32 w = .ok (.cmd (BitVec.ofNat 25 w)) := by
  simp only [codeOfNumber, h, if_true]
  rfl

/-- The number of a byte is a function code: a received one where bit 7 is set (log entry 6). -/
theorem codeOfNumber_byte (b : Byte) :
    codeOfNumber 8 b.toNat = .ok (if b.getLsbD 7 then .rxFc b else .reqFc b) := by
  simp [codeOfNumber, b.isLt]

namespace Machine

/-! ## Reads and idempotent writes (R47) -/

/-- What a read returns does not depend on the outputs of the step before. -/
theorem readValue_answer (s : State) (v : Word) (i : Instr) : readValue (s.answer v) i = readValue s i := by
  cases i <;> rfl

/-- A command that only reads changes the outputs alone, and run again it does nothing more. -/
theorem exec_reads_repeats {i : Instr} {s t : State} (hi : i.reads = true) (he : exec i s = .next t) :
    t = { s with ready := true, rdata := t.rdata } ∧ exec i t = .next t := by
  rw [exec_of_reads hi] at he
  obtain ⟨v, hv, rfl⟩ := answerRead_next he
  refine ⟨rfl, ?_⟩
  rw [exec_of_reads hi, readValue_answer, hv]
  rfl

/-- Once a frame is closed, closing it again does nothing (R116). -/
theorem closeFrame_repeats {k : Layout} {fc : Byte} {s t : State} (h : closeFrame k fc s = .next t)
    (k' : Layout) (fc' : Byte) : closeFrame k' fc' t = .next t := by
  have hclosed : t.done = true ∧ t.ack = t := by
    rcases closeFrame_next h with ⟨hd, rfl⟩ | ⟨-, -, rfl⟩
    · exact ⟨hd, rfl⟩
    · exact ⟨rfl, rfl⟩
  obtain ⟨hd, hack⟩ := hclosed
  rw [closeFrame_done hd, hack]

@[simp] theorem State.frame_ack (s : State) : s.ack.frame = s.frame := rfl

/-- Two pushes with room for both store the byte twice (R47). -/
theorem execFrmPush_twice_frame {b : Byte} {s t u : State} (hd : s.done = false)
    (hl : s.len + 1 < s.cfg.frameMax) (ht : execFrmPush b s = .next t) (hu : execFrmPush b t = .next u) :
    u.frame = s.frame ++ [b, b] := by
  rw [execFrmPush_store hd (Nat.lt_of_succ_lt hl)] at ht
  cases ht
  rw [execFrmPush_store (s := (s.store b).ack) hd hl] at hu
  cases hu
  simp

/-- Settles O12: a read only reads or is illegal, a closed frame stays closed, and the two writes that
accumulate are computed. -/
theorem readsHaveNoSideEffects : Obligations.ReadsHaveNoSideEffects := by
  refine ⟨fun a d s t he => ?_, fun i s t hi he => ?_, fun b s t u ht hu => ?_,
    fun b s t u hd hl ht hu => execFrmPush_twice_frame hd hl ht hu⟩
  · rw [decodeCmd_read] at he ⊢
    rcases decodeRead_reads_or_ill a d with hr | hill
    · obtain ⟨ht, hagain⟩ := exec_reads_repeats hr he
      have hlegal := Instr.ne_ill_of_reads hr false a d
      rw [decide_eq_false hlegal, Bool.or_false]
      exact ⟨ht, fun _ => hagain⟩
    · rw [hill] at he
      cases he
      exact ⟨by simp [hill, State.setIll, State.answer], fun hlegal => absurd hill hlegal⟩
  · rcases hi with rfl | rfl | rfl | ⟨a, f, rfl⟩
    · cases he; rfl
    · cases he; rfl
    · exact closeFrame_repeats he _ _
    · cases he; rfl
  · cases ht
    cases hu
    rfl

/-! ## The placed instruction (R50, log entries 3 and 6) -/

/-- The bus cycle of a command word carries that word (R60). -/
theorem BusCycle.word_ofWord (w : CmdWord) : (BusCycle.ofWord w).word = w := cmdWord_fields w

/-- A placed command word is the one the next step runs (R50). -/
theorem step_placeCmd (s : State) (w : CmdWord) : step (placeCmd s w) = exec (decodeCmd w) s := by
  rw [step_of_sel (s := placeCmd s w) (c := .ofWord w) (rest := s.port) rfl rfl rfl, BusCycle.word_ofWord]
  rfl

/-- The placed command of `frm.end` closes by the live `REQ_FC` (R115). -/
theorem step_placeCmd_frmEndWord (s : State) :
    step (placeCmd s frmEndWord) = closeFrame (classOf s.cfg s.reqFc) s.reqFc s :=
  step_placeCmd s frmEndWord

/-- A function code outside R66 selects class RAW (R111). -/
theorem classOf_of_not_knownFunction (c : Config) {fc : Byte} (h : knownFunction fc = false) :
    classOf c fc = .raw := by
  have hne : (((fc ≠ 0x03#8 ∧ fc ≠ 0x04#8) ∧ fc ≠ 0x06#8) ∧ fc ≠ 0x41#8) ∧ fc ≠ 0x42#8 := by
    simpa [knownFunction] using h
  simp [classOf, hne]

/-- The row a request function code selects closes by the class of that code (R111). -/
theorem exec_decodeReqFc (b : Byte) (s : State) :
    exec (decodeReqFc b) s = closeFrame (classOf s.cfg b) b s := by
  cases hb : knownFunction b with
  | true =>
    have hrow : b = 0x03#8 ∨ b = 0x04#8 ∨ b = 0x06#8 ∨ b = 0x41#8 ∨ b = 0x42#8 := by
      simpa [knownFunction, or_assoc] using hb
    rcases hrow with rfl | rfl | rfl | rfl | rfl <;> rfl
  | false => rw [decodeReqFc_of_not_knownFunction hb, classOf_of_not_knownFunction _ hb]; rfl

/-- Where the frame carries the error code, `fc.error_reply` closes it as the class of `REQ_FC` does
(R65, R117). -/
theorem closeErrorReply_eq_closeFrame {s : State} {c : BitVec 7} (k : Layout)
    (h : s.frame[1]? = some (errorCodeByte c)) : closeErrorReply k c s = closeFrame k s.reqFc s := by
  unfold closeErrorReply closeFrame
  cases hf : readFrame s with
  | error e => rfl
  | ok f =>
    obtain ⟨-, rfl⟩ := readFrame_eq_ok hf
    simp only [h, errorReplyVerdict_eq_verdict k _ _ h (errorFlag_errorCodeByte c)]

/-- A frame with `frm.end` placed after a request function code runs that code's row (R111). -/
theorem step_frmEnd_setReq (s : State) (a b : Byte) :
    step (placeCmd (s.setReq a b) frmEndWord) = exec (decodeReqFc b) (s.setReq a b) :=
  (step_placeCmd_frmEndWord _).trans (exec_decodeReqFc b _).symm

theorem placeReqFc_open {s : State} (hd : s.done = false) (b : Byte) :
    placeReqFc s b = placeCmd (s.setReq s.reqAddr b) frmEndWord := by
  simp [placeReqFc, hd]

theorem placeReqFc_closed {s : State} (hd : s.done = true) (b : Byte) :
    placeReqFc s b = placeCmd (s.clearFrame.setReq s.reqAddr b) frmEndWord := by
  simp [placeReqFc, hd]

/-- A placed received function code stands at `FB[1]` of an open frame, before `frm.end` (R65). -/
theorem placeRxFc_eq (s : State) (b : Byte) : ∃ t, placeRxFc s b = placeCmd t frmEndWord ∧
    t.done = false ∧ t.port = s.port ∧ t.frame[1]? = some b := by
  refine ⟨_, rfl, rfl, rfl, ?_⟩
  change (storeAll s.clearFrame _).frame[1]? = some b
  rw [storeAll_frame]
  rfl

theorem withFetchWord_cmd (s : State) {w : Nat} (h : w < 2 ^ 25) :
    s.withFetchWord 32 w = placeCmd s (BitVec.ofNat 25 w) := by
  rw [State.withFetchWord, codeOfNumber_cmd h]

theorem withFetchWord_reqFc (s : State) {b : Byte} (h : b.getLsbD 7 = false) :
    s.withFetchWord 8 b.toNat = placeReqFc s b := by
  rw [State.withFetchWord, codeOfNumber_byte, h]
  rfl

theorem withFetchWord_rxFc (s : State) {b : Byte} (h : b.getLsbD 7 = true) :
    s.withFetchWord 8 b.toNat = placeRxFc s b := by
  rw [State.withFetchWord, codeOfNumber_byte, h]
  rfl

/-- Settles O23: a command word is run as placed; a function code is dispatched on by the `frm.end` placed
with it. -/
theorem placedWordRunsNext : Obligations.PlacedWordRunsNext := by
  refine ⟨fun s w hw => ?_, fun s b hb => ?_, fun s c => ?_⟩
  · rw [withFetchWord_cmd s hw, step_placeCmd]
  · rw [withFetchWord_reqFc s hb]
    rcases Bool.eq_false_or_eq_true s.done with hd | hd
    · rw [placeReqFc_closed hd]
      exact ⟨s.clearFrame.setReq s.reqAddr b, rfl, rfl, rfl,
        fun hopen => Bool.noConfusion (hd.symm.trans hopen), step_frmEnd_setReq _ _ b⟩
    · rw [placeReqFc_open hd]
      exact ⟨s.setReq s.reqAddr b, rfl, hd, rfl, fun _ => rfl, step_frmEnd_setReq _ _ b⟩
  · obtain ⟨t, ht, hd, hp, hf⟩ := placeRxFc_eq s (errorCodeByte c)
    refine ⟨t, hd, hp, hf, ?_⟩
    rw [withFetchWord_rxFc s (errorFlag_errorCodeByte c), ht, step_placeCmd_frmEndWord]
    exact (closeErrorReply_eq_closeFrame _ hf).symm

end Machine

end Sys2Proof

/-! SUPPORT. The statements of 30_encoding.md on codes: what a code decodes to is well formed and goes back to
the same space, access and address (R60, R61, R75, R76); the operands (R62); words of the spec (R79). -/

namespace Sys2Proof

/-- Settles O17: `decode_encode`, which splits on the rows of the table. -/
theorem decodeEncodeAgree : Obligations.DecodeEncodeAgree := fun _ h => decode_encode h

/-- A write outside the five W addresses is illegal, whatever its data (R153 (a), (c)). -/
theorem illegalAccess_write {a : Byte} (d : Word)
    (h : a ≠ 0x00#8 ∧ a ≠ 0x01#8 ∧ a ≠ 0x10#8 ∧ a ≠ 0x11#8 ∧ a ≠ 0x12#8) : illegalAccess true a d = true := by
  have hzero : ∀ a : Byte, (a ≠ 0x00#8 ∧ a ≠ 0x01#8 ∧ a ≠ 0x10#8 ∧ a ≠ 0x11#8 ∧ a ≠ 0x12#8) →
      illegalAccess true a 0x0001#16 = true := by decide
  have hdata : illegalAccess true a d = illegalAccess true a 0x0001#16 := by
    simp [illegalAccess, h]
  exact hdata.trans (hzero a h)

/-- The R addresses below the window of body words (R61). -/
def readRows : List Byte :=
  [0x02#8, 0x03#8, 0x04#8, 0x12#8, 0x13#8, 0x14#8, 0x15#8, 0x16#8, 0x17#8, 0x18#8, 0x19#8, 0x7F#8]

/-- A read outside the R addresses is illegal, whatever the ignored data (R153 (b), (c)). -/
theorem illegalAccess_read {a : Byte} (d : Word) (hflag : a.getLsbD 7 = false)
    (h : a ∉ readRows) : illegalAccess false a d = true := by
  have hzero : ∀ a : Byte, a.getLsbD 7 = false → a ∉ readRows →
      illegalAccess false a 0#16 = true := by decide
  exact hzero a hflag h

/-- The instruction is well formed and is encoded at this access and address. -/
def Instr.standsAt (wr : Bool) (a : Byte) (i : Instr) : Prop :=
  i.wf = true ∧ ∃ d, encode i = .cmd (cmdWord wr a d)

theorem decodeWrite_standsAt (a : Byte) (d : Word) : (decodeWrite a d).standsAt true a := by
  unfold decodeWrite
  split_ifs with h00 hd h01 h10 hd1 hd2 h11 h12
  · subst h00; exact ⟨rfl, _, rfl⟩
  · exact ⟨by simp [Instr.wf, illegalAccess, h00, hd], d, rfl⟩
  · subst h01; exact ⟨rfl, _, rfl⟩
  · subst h10; exact ⟨rfl, _, rfl⟩
  · subst h10; exact ⟨rfl, _, rfl⟩
  · exact ⟨by simp [Instr.wf, illegalAccess, h10, hd1, hd2], d, rfl⟩
  · subst h11; exact ⟨rfl, _, rfl⟩
  · subst h12; exact ⟨rfl, _, rfl⟩
  · exact ⟨illegalAccess_write d ⟨h00, h01, h10, h11, h12⟩, d, rfl⟩

theorem decodeRead_standsAt (a : Byte) (d : Word) : (decodeRead a d).standsAt false a := by
  by_cases hrow : a ∈ readRows
  · simp only [readRows, List.mem_cons, List.not_mem_nil, or_false] at hrow
    rcases hrow with rfl | rfl | rfl | rfl | rfl | rfl | rfl | rfl | rfl | rfl | rfl | rfl <;>
      exact ⟨rfl, _, rfl⟩
  cases hflag : a.getLsbD 7 with
  | true =>
    rw [← flag_index a hflag, decodeRead_register]
    exact ⟨rfl, _, rfl⟩
  | false =>
    have hill := illegalAccess_read d hflag hrow
    rw [decodeRead_of_illegalAccess hill]
    exact ⟨hill, d, rfl⟩

/-- The instruction of a command word stands at the word's access and address (R60, R61, R75). -/
theorem decodeCmd_standsAt (w : CmdWord) : (decodeCmd w).standsAt (cmdWr w) (cmdAddr w) := by
  unfold decodeCmd
  cases cmdWr w with
  | true => exact decodeWrite_standsAt _ _
  | false => exact decodeRead_standsAt _ _

/-- A request function code selects a row that is encoded by that code (R66, R76). -/
theorem encode_decodeReqFc (b : Byte) : (decodeReqFc b).wf = true ∧ encode (decodeReqFc b) = .reqFc b := by
  cases hb : knownFunction b with
  | true =>
    have hrow : b = 0x03#8 ∨ b = 0x04#8 ∨ b = 0x06#8 ∨ b = 0x41#8 ∨ b = 0x42#8 := by
      simpa [knownFunction, or_assoc] using hb
    rcases hrow with rfl | rfl | rfl | rfl | rfl <;> exact ⟨rfl, rfl⟩
  | false =>
    rw [decodeReqFc_of_not_knownFunction hb]
    exact ⟨by simp [Instr.wf, hb], rfl⟩

/-- A received function code that selects a row has bit 7 set, and the row is encoded by it (R65). -/
theorem encode_of_decodeRxFc {b : Byte} {i : Instr} (h : decodeRxFc b = .ok i) :
    i.wf = true ∧ encode i = .rxFc b := by
  unfold decodeRxFc at h
  split at h
  · next hflag =>
    cases h
    exact ⟨rfl, congrArg Code.rxFc (flag_index b hflag)⟩
  · cases h

/-- Settles O18: the decoded command stands at the word's access and address, and decoding its encoding gives
it back. -/
theorem encodeDecodeAgree : Obligations.EncodeDecodeAgree := by
  refine ⟨fun w => ?_, encode_decodeReqFc, fun b i => encode_of_decodeRxFc⟩
  obtain ⟨hwf, d, he⟩ := decodeCmd_standsAt w
  exact ⟨hwf, _, he, cmdWr_cmdWord _ _ _, cmdAddr_cmdWord _ _ _, decodeCmd_of_encode hwf he⟩

/-- An address from 0x80 on is bit 7 and the index `A - 0x80` (R62). -/
theorem address_eq_flag_index {a : Byte} (h : 0x80 ≤ a.toNat) :
    a = 1#1 ++ BitVec.ofNat 7 (a.toNat - 0x80) := by
  revert a
  decide

/-- Settles O20: byte operands are the low byte of `D`, a request is both bytes, and of the command values only
the exact ones are commands. -/
theorem operandsAreAssembledAsR62 : Obligations.OperandsAreAssembledAsR62 := by
  refine ⟨fun hi b => ?_, fun a f => ?_, fun a d ha => ?_, fun d => ?_⟩
  · simp [decodeWrite]
  · simp [decodeWrite]
  · rw [decodeCmd_read]
    conv_lhs => rw [address_eq_flag_index ha]
    exact decodeRead_register _ d
  · by_cases h1 : d = 0x0001#16
    · simp [decodeWrite, h1]
    · by_cases h2 : d = 0x0002#16 <;> simp [decodeWrite, h1, h2]

/-- Settles O21: closed words, evaluated. -/
theorem specWordsDecode : Obligations.SpecWordsDecode := by
  unfold Obligations.SpecWordsDecode
  decide

end Sys2Proof

/-! SUPPORT. The statements of 30_encoding.md on frames: the request layouts carry their CRC (R63, R67 to R69);
a reply of each layout is judged, and its fields are read out, as it was built (R71 to R73). -/

namespace Sys2Proof

namespace Machine

/-! ## A body followed by its CRC -/

/-- A frame built with its CRC passes the CRC check (R63, R97). -/
@[simp] theorem validate_withCrc (body : List Byte) : validate (withCrc body) = true := by
  rw [validate_eq_true_iff, withCrc_length, Nat.add_sub_cancel]
  exact ⟨by omega, by simp [withCrc]⟩

/-- Settles O47: each request is its body followed by its CRC; the example frames are evaluated. -/
theorem requestFramesCarryTheirCrc : Obligations.RequestFramesCarryTheirCrc :=
  ⟨fun _ _ _ _ => ⟨_, _, rfl, beWord_high_low _, validate_withCrc _⟩,
    fun _ _ _ => ⟨_, _, rfl, validate_withCrc _⟩,
    fun _ => ⟨_, _, rfl, validate_withCrc _⟩,
    fun _ => ⟨_, _, rfl, validate_withCrc _⟩,
    by decide +kernel, by decide +kernel, by decide +kernel, by decide +kernel⟩

/-! ## What the reads of a trusted frame return (R147 to R150) -/

/-- `frm.hdr` of a trusted frame (R147). -/
theorem exec_frmHdr_of_trusted {t : State} (ht : trusted t = true) (hm : 2 ≤ t.cfg.frameMax) :
    exec .frmHdr t = .next (t.answer (beWord (t.fbByte 0) (t.fbByte 1))) := by
  rw [exec_of_reads rfl, readValue, if_pos ht, memRead2_of_lt (by omega)]
  rfl

/-- `frm.exc` of a trusted error reply (R149). -/
theorem exec_frmExc_of_protocolError {t : State} (ht : trusted t = true) (hr : t.result = .protocolError)
    (hm : 3 ≤ t.cfg.frameMax) : exec .frmExc t = .next (t.answer (excWord (t.fbByte 2))) := by
  rw [exec_of_reads rfl, readValue, if_pos (by simp [ht, hr]), memRead_of_lt (by omega)]
  rfl

section
variable {t : State} {p : Nat × Byte} (hp : infoFields t = .ok p)
include hp

/-- `frm.info` shows `NREG` and `BC` (R148). -/
theorem exec_frmInfo_of_infoFields : exec .frmInfo t = .next (t.answer (infoWord p.1 p.2)) := by
  rw [exec_of_reads rfl, readValue, hp]
  rfl

/-- `frm.reg` past the last body word (R150). -/
theorem exec_frmReg_of_ge {i : BitVec 7} (hi : p.1 ≤ i.toNat) : exec (.frmReg i) t = .next (t.answer 0#16) := by
  rw [exec_of_reads rfl, readValue, hp, Except.bind, if_neg (by simp [hi])]
  rfl

/-- `frm.reg` of a body word (R150). -/
theorem exec_frmReg_of_lt {i : BitVec 7} (ht : trusted t = true) (hr : t.result = .ok) (hi : i.toNat < p.1)
    (hm : bodyBase t.cls + 2 * i.toNat + 1 < t.cfg.frameMax) :
    exec (.frmReg i) t = .next (t.answer
      (beWord (t.fbByte (bodyBase t.cls + 2 * i.toNat)) (t.fbByte (bodyBase t.cls + 2 * i.toNat + 1)))) := by
  rw [exec_of_reads rfl, readValue, hp, Except.bind, if_pos (by simp [ht, hr, hi]), memRead2_of_lt hm]
  rfl
end

/-- `NREG` and `BC` of a trusted read reply (R148). -/
theorem infoFields_of_read {t : State} (ht : trusted t = true) (hr : t.result = .ok) (hc : t.cls = .read)
    (hm : 3 ≤ t.cfg.frameMax) : infoFields t = .ok ((t.fbByte 2).toNat / 2, t.fbByte 2) := by
  simp [infoFields_cases t hm, ht, hr, hc]

/-- `NREG` and `BC` of a trusted fixed reply (R148). -/
theorem infoFields_of_fixed {t : State} (ht : trusted t = true) (hr : t.result = .ok) (hc : t.cls = .fixed) :
    infoFields t = .ok ((t.len - 4) / 2, 0#8) := by
  simp [infoFields, ht, hr, hc]

/-- A frame that is not `OK` has no data (R148). -/
theorem infoFields_of_ne_ok {t : State} (hr : t.result ≠ .ok) : infoFields t = .ok (0, 0#8) := by
  simp [infoFields, hr]

/-- The image of `FRM_INFO` as a number (R148, log entry 9). -/
theorem infoWord_eq (nreg : Nat) (bc : Byte) :
    infoWord nreg bc = BitVec.ofNat 16 (256 * (nreg % 128) + bc.toNat) := by
  apply BitVec.eq_of_toNat_eq
  rw [infoWord, BitVec.toNat_append, ← Nat.shiftLeft_add_eq_or_of_lt bc.isLt, BitVec.toNat_append]
  simp only [BitVec.toNat_ofNat, pow_one, Nat.zero_mod, Nat.shiftLeft_eq, Nat.reducePow, zero_mul, Nat.zero_or]
  omega

/-- The image of `FRM_EXC` as a number: the class is the code itself for 1 to 4, else 7 (R78, R149). -/
theorem excWord_eq (code : Byte) : excWord code = BitVec.ofNat 16
    (256 * (if 1 ≤ code.toNat ∧ code.toNat ≤ 4 then code.toNat else 7) + code.toNat) := by
  revert code
  decide

/-! ## Closing a frame with a good CRC -/

/-- The state after `frm.end` on a frame with a good CRC and the verdict `r` (R115). -/
def State.judged (s : State) (r : Result) : State :=
  (s.latch (classOf s.cfg s.reqFc) s.reqFc s.frame[0]? s.frame[1]? r true).ack

section
variable (s : State) (r : Result)
@[simp] theorem State.judged_cfg : (s.judged r).cfg = s.cfg := rfl
@[simp] theorem State.judged_len : (s.judged r).len = s.len := rfl
@[simp] theorem State.judged_frame : (s.judged r).frame = s.frame := rfl
@[simp] theorem State.judged_result : (s.judged r).result = r := rfl
@[simp] theorem State.judged_crcOk : (s.judged r).crcOk = true := rfl
@[simp] theorem State.judged_cls : (s.judged r).cls = classOfLayout (classOf s.cfg s.reqFc) := rfl

variable {s r} (hk : classOf s.cfg s.reqFc ≠ .raw) (hr : passed r = true)
include hk hr

theorem State.trusted_judged : trusted (s.judged r) = true := by
  have hcls : (s.judged r).cls ≠ .raw := mt (classOfLayout_eq_raw _).mp hk
  rw [trusted, decide_eq_true hcls, State.judged_result, hr]
  rfl

theorem State.goodFrame_judged : goodFrame (classOf s.cfg s.reqFc) r = true := by
  rw [goodFrame, decide_eq_true (mt (classOfLayout_eq_raw _).mp hk), hr]
  rfl

/-- The address flag of a frame that passes compares its first byte (R115). -/
theorem State.judged_amatch {f0 : Byte} (h0 : s.frame[0]? = some f0) :
    (s.judged r).amatch = decide (f0 = s.reqAddr) := by
  change amatchOf _ s.frame[0]? s.reqAddr = _
  simp [amatchOf, State.goodFrame_judged hk hr, h0]

/-- The function flag of a frame that passes compares its function without the error flag (R115). -/
theorem State.judged_fmatch {f1 : Byte} (h1 : s.frame[1]? = some f1) :
    (s.judged r).fmatch = decide (f1 &&& 0x7F#8 = s.reqFc &&& 0x7F#8) := by
  change fmatchOf _ s.frame[1]? s.reqFc = _
  simp [fmatchOf, functionOf, State.goodFrame_judged hk hr, h1]

/-- `frm.hdr` of a frame that passes returns its first two bytes (R147). -/
theorem exec_frmHdr_judged {f0 f1 : Byte} (hm : 2 ≤ s.cfg.frameMax) (h0 : s.frame[0]? = some f0)
    (h1 : s.frame[1]? = some f1) :
    exec .frmHdr (s.judged r) = .next ((s.judged r).answer (beWord f0 f1)) := by
  rw [exec_frmHdr_of_trusted (State.trusted_judged hk hr) hm, State.fbByte_of_frame (s := s.judged r) h0,
    State.fbByte_of_frame (s := s.judged r) h1]
end

/-- A frame with a good CRC is closed by the verdict of its header (R115, R117). -/
theorem exec_frmEnd_of_validate {s : State} {r : Result} (hd : s.done = false) (ho : s.ovr = false)
    (hl : s.len ≤ s.cfg.frameMax) (hk : classOf s.cfg s.reqFc ≠ .raw) (hv : validate s.frame = true)
    (hr : headerVerdict (classOf s.cfg s.reqFc) s.frame false true = r) :
    exec .frmEnd s = .next (s.judged r) := by
  have hcrc : crcVerdict s.ovr s.frame = true := by simp [crcVerdict, ho, hv]
  have hverdict : verdict (classOf s.cfg s.reqFc) s.frame s.ovr true = r := by
    rw [verdict_of_ne_raw hk, ho, hr]
  change closeFrame _ _ s = _
  rw [closeFrame_open hd hl, hcrc, hverdict]
  rfl

/-- A frame without the error flag and of the length its layout asks for is `OK` (R117 step 5). -/
theorem headerVerdict_ok {k : Layout} {f : List Byte} {f1 f2 : Byte} (h1 : f[1]? = some f1) (h2 : f[2]? = some f2)
    (herr : errorFlag f1 = false) (hfits : lengthFits k f.length f2 = true) :
    headerVerdict k f false true = .ok := by
  match f, h1, h2 with
  | f0 :: g1 :: g2 :: rest, h1, h2 =>
    obtain rfl : g1 = f1 := Option.some.inj h1
    obtain rfl : g2 = f2 := Option.some.inj h2
    simpa [headerVerdict, herr] using hfits

/-! ## The window of body words (R150) -/

/-- The bytes of a list of words, two and two (R42). -/
theorem getElem?_flatMap_beBytes (ws : List Word) (i : Nat) :
    (ws.flatMap beBytes)[2 * i]? = ws[i]?.map highByte ∧
    (ws.flatMap beBytes)[2 * i + 1]? = ws[i]?.map lowByte := by
  induction ws generalizing i with
  | nil => exact ⟨rfl, rfl⟩
  | cons w ws ih =>
    cases i with
    | zero => exact ⟨rfl, rfl⟩
    | succ i => exact ih i

theorem length_flatMap_beBytes (ws : List Word) : (ws.flatMap beBytes).length = 2 * ws.length := by
  simp [Nat.mul_comm]

/-- A read reply of `n` words has three header bytes, `2n` of payload and two of CRC (R71). -/
theorem readReply_length (a fc : Byte) (ws : List Word) : (readReply a fc ws).length = 5 + 2 * ws.length := by
  rw [readReply, withCrc_length, List.length_append, length_flatMap_beBytes, List.length_cons, List.length_cons,
    List.length_singleton]
  omega

/-- A fixed reply of `n` words has two header bytes, `2n` of body and two of CRC (R73). -/
theorem fixedReply_length (a fc : Byte) (ws : List Word) : (fixedReply a fc ws).length = 2 * ws.length + 4 := by
  rw [fixedReply, withCrc_length, List.length_append, length_flatMap_beBytes, List.length_cons,
    List.length_singleton]
  omega

/-- The body words of a trusted frame come out of the window as they were put in, and zeros after them. -/
theorem exec_frmReg_delivers {t : State} {hdr tail : List Byte} {ws : List Word} {bc : Byte}
    (hf : t.frame = hdr ++ (ws.flatMap beBytes ++ tail)) (hhdr : hdr.length = bodyBase t.cls)
    (hp : infoFields t = .ok (ws.length, bc)) (ht : trusted t = true) (hr : t.result = .ok)
    (hl : t.len ≤ t.cfg.frameMax) (i : BitVec 7) :
    exec (.frmReg i) t = .next (t.answer (ws[i.toNat]?.getD 0#16)) := by
  rcases Nat.lt_or_ge i.toNat ws.length with hi | hi
  · have hlen : t.len = hdr.length + (2 * ws.length + tail.length) := by
      rw [← t.frame_length, hf, List.length_append, List.length_append, length_flatMap_beBytes]
    have hbody : ∀ j, j < 2 * ws.length → t.frame[bodyBase t.cls + j]? = (ws.flatMap beBytes)[j]? := by
      intro j hj
      rw [hf, ← hhdr, List.getElem?_append_right (Nat.le_add_right _ _), Nat.add_sub_cancel_left,
        List.getElem?_append_left (by rw [length_flatMap_beBytes]; exact hj)]
    have hw : ws[i.toNat]? = some ws[i.toNat] := List.getElem?_eq_getElem hi
    obtain ⟨hhigh, hlow⟩ := getElem?_flatMap_beBytes ws i.toNat
    rw [← hbody _ (by omega), hw] at hhigh hlow
    rw [exec_frmReg_of_lt hp ht hr hi (by omega), State.fbByte_of_frame hhigh,
      Nat.add_assoc, State.fbByte_of_frame hlow, beWord_high_low, hw]
    rfl
  · rw [exec_frmReg_of_ge hp hi, List.getElem?_eq_none hi]
    rfl

/-- Settles O44: the reply is as long as its byte count says, so it is `OK`, and the reads return what it was
built from. -/
theorem readReplyIsDelivered : Obligations.ReadReplyIsDelivered := by
  intro s a fc ws hd ho hl hm hws hcls herr hf
  have hk : classOf s.cfg s.reqFc ≠ .raw := by simp [hcls]
  have hf' : s.frame = [a, fc, BitVec.ofNat 8 (2 * ws.length)] ++ (ws.flatMap beBytes ++ wireBytes _) := hf
  have h0 : s.frame[0]? = some a := by rw [hf']; rfl
  have h1 : s.frame[1]? = some fc := by rw [hf']; rfl
  have h2 : s.frame[2]? = some (BitVec.ofNat 8 (2 * ws.length)) := by rw [hf']; rfl
  have hcount : (BitVec.ofNat 8 (2 * ws.length) : Byte).toNat = 2 * ws.length :=
    Nat.mod_eq_of_lt (by omega)
  have hfits : lengthFits .read s.frame.length (BitVec.ofNat 8 (2 * ws.length)) = true := by
    rw [lengthFits, hcount, hf, readReply_length, decide_eq_true_eq]
    omega
  have hend := exec_frmEnd_of_validate hd ho hl hk (by rw [hf]; exact validate_withCrc _)
    (headerVerdict_ok h1 h2 herr (hcls ▸ hfits))
  have ht : trusted (s.judged .ok) = true := State.trusted_judged hk rfl
  have hb2 : (s.judged .ok).fbByte 2 = BitVec.ofNat 8 (2 * ws.length) := State.fbByte_of_frame h2
  have hread : (s.judged .ok).cls = .read := by simp [hcls]
  have hp := infoFields_of_read ht rfl hread (le_trans (by decide) hm)
  rw [hb2, hcount, Nat.mul_div_cancel_left _ Nat.two_pos] at hp
  refine ⟨_, hend, rfl, rfl, hread, State.judged_amatch hk rfl h0, State.judged_fmatch hk rfl h1,
    exec_frmHdr_judged hk rfl (by omega) h0 h1, ?_, exec_frmReg_delivers hf' (by rw [hread]; rfl) hp ht rfl hl⟩
  rw [exec_frmInfo_of_infoFields hp, infoWord_eq, hcount, Nat.mod_eq_of_lt (by omega)]
  rfl

/-- Settles O46: as for a read reply, with the length of the layout in place of a byte count. -/
theorem fixedReplyIsDelivered : Obligations.FixedReplyIsDelivered := by
  intro s a fc ws hd ho hl hm hcls herr hf
  have hk : classOf s.cfg s.reqFc ≠ .raw := by simp [hcls]
  have hf' : s.frame = [a, fc] ++ (ws.flatMap beBytes ++ wireBytes _) := hf
  have hlen : s.frame.length = 2 * ws.length + 4 := by rw [hf, fixedReply_length]
  have h1 : s.frame[1]? = some fc := by rw [hf']; rfl
  have h2 : s.frame[2]? = some (s.fbByte 2) := s.frame_getElem? 2 (by rw [← s.frame_length]; omega)
  have hfits : lengthFits (.fixed (2 * ws.length + 4)) s.frame.length (s.fbByte 2) = true :=
    decide_eq_true hlen
  have hend := exec_frmEnd_of_validate hd ho hl hk (by rw [hf]; exact validate_withCrc _)
    (headerVerdict_ok h1 h2 herr (hcls ▸ hfits))
  have ht : trusted (s.judged .ok) = true := State.trusted_judged hk rfl
  have hfixed : (s.judged .ok).cls = .fixed := by simp [hcls]
  have hp := infoFields_of_fixed ht rfl hfixed
  rw [State.judged_len, ← s.frame_length, hlen, Nat.add_sub_cancel, Nat.mul_div_cancel_left _ Nat.two_pos] at hp
  exact ⟨_, hend, rfl, rfl, hfixed, exec_frmReg_delivers hf' (by rw [hfixed]; rfl) hp ht rfl hl⟩

/-- Settles O45: five bytes with the error flag and a good CRC are a protocol error, which has no data. -/
theorem errorReplyIsReported : Obligations.ErrorReplyIsReported := by
  intro s a code c hd ho hl hm hk hf
  have h0 : s.frame[0]? = some a := by rw [hf]; rfl
  have h1 : s.frame[1]? = some (errorCodeByte c) := by rw [hf]; rfl
  have h2 : s.frame[2]? = some code := by rw [hf]; rfl
  have hlen : s.frame.length = 5 := by rw [hf]; rfl
  have hverdict : headerVerdict (classOf s.cfg s.reqFc) s.frame false true = .protocolError := by
    rw [headerVerdict_of_errorFlag _ _ _ h1 (errorFlag_errorCodeByte c), hlen]
    rfl
  have hend := exec_frmEnd_of_validate hd ho hl hk (by rw [hf]; exact validate_withCrc _) hverdict
  have hp : infoFields (s.judged .protocolError) = .ok (0, 0#8) := infoFields_of_ne_ok (by simp)
  refine ⟨_, hend, rfl, rfl, State.judged_amatch hk rfl h0,
    exec_frmHdr_judged hk rfl (by omega) h0 h1, ?_, exec_frmInfo_of_infoFields hp,
    fun i => exec_frmReg_of_ge hp (Nat.zero_le _)⟩
  rw [exec_frmExc_of_protocolError (State.trusted_judged hk rfl) rfl (le_trans (by decide) hm),
    State.fbByte_of_frame (s := s.judged .protocolError) h2, excWord_eq]
  rfl

end Machine

end Sys2Proof

/-! SUPPORT. The statements of 40_crc.md. An iteration of R91 takes one bit of the operand in and loses nothing;
from that follow the bit-serial form (R94), the equations (R95), the bijection and the detected bit flip (R98),
and the residue (R99). -/

namespace Sys2Proof

namespace Machine

/-! ## Bits of the operands -/

@[simp] theorem getLsbD_zext16 (b : Byte) (k : Nat) : (zext16 b).getLsbD k = b.getLsbD k := by
  rw [zext16, BitVec.getLsbD_setWidth]
  by_cases hk : k < 16
  · simp [hk]
  · simp [hk, BitVec.getLsbD_of_ge b k (by omega)]

theorem zext16_injective : Function.Injective zext16 := fun b d h =>
  BitVec.eq_of_getLsbD_eq fun k _ => by rw [← getLsbD_zext16, h, getLsbD_zext16]

theorem getLsbD_beWord (h l : Byte) (k : Nat) :
    (beWord h l).getLsbD k = if k < 8 then l.getLsbD k else h.getLsbD (k - 8) :=
  BitVec.getLsbD_append

/-! ## One iteration of R91 -/

/-- Bit `i` after an iteration: the bit above it, fed back with bit 0 where the polynomial has a one. -/
theorem getLsbD_crcShift (r : Word) (i : Nat) :
    (crcShift r).getLsbD i = (r.getLsbD (i + 1) ^^ (r.getLsbD 0 && crcPoly.getLsbD i)) := by
  unfold crcShift
  cases h : r.getLsbD 0 <;> simp [Nat.add_comm]

/-- `CRC_POLY` is 0xA001: between bit 0 and bit 13 it has no ones. -/
theorem getLsbD_crcPoly_middle {i : Nat} (h1 : 1 ≤ i) (h12 : i ≤ 12) : crcPoly.getLsbD i = false := by
  interval_cases i <;> rfl

/-- An iteration loses nothing: bit 15 of the result is the bit that was shifted out. -/
theorem crcShift_injective : Function.Injective crcShift := by
  intro r x h
  have hbit (i : Nat) : (crcShift r).getLsbD i = (crcShift x).getLsbD i := by rw [h]
  simp only [getLsbD_crcShift] at hbit
  have h0 : r.getLsbD 0 = x.getLsbD 0 := by simpa [crcPoly] using hbit 15
  apply BitVec.eq_of_getLsbD_eq
  intro i _
  cases i with
  | zero => exact h0
  | succ i =>
    have hi := hbit i
    rw [h0] at hi
    exact Bool.xor_left_inj.mp hi

/-- An iteration takes in one data bit, the bit-serial form's, and moves the others down (R94). -/
theorem crcShift_xor_eq_crcBit (c x : Word) : crcShift (c ^^^ x) = crcBit c (x.getLsbD 0) ^^^ (x >>> 1) := by
  unfold crcShift crcBit
  rw [BitVec.getLsbD_xor, BitVec.ushiftRight_xor_distrib]
  split
  · ac_rfl
  · rfl

/-! ## `n` iterations -/

theorem crcShifts_eq_iterate (n : Nat) (r : Word) : crcShifts n r = crcShift^[n] r := by
  induction n generalizing r with
  | zero => rfl
  | succ n ih => exact ih (crcShift r)

theorem crcShifts_succ_last (n : Nat) (r : Word) : crcShifts (n + 1) r = crcShift (crcShifts n r) := by
  simp only [crcShifts_eq_iterate, Function.iterate_succ_apply']

theorem crcShifts_injective (n : Nat) : Function.Injective (crcShifts n) := by
  have h : crcShifts n = crcShift^[n] := funext (crcShifts_eq_iterate n)
  exact h ▸ crcShift_injective.iterate n

/-- Where there are no ones to feed back, the iterations only shift. -/
theorem crcShifts_of_low_zero {n : Nat} {r : Word} (h : ∀ k < n, r.getLsbD k = false) :
    crcShifts n r = r >>> n := by
  induction n with
  | zero => simp [crcShifts]
  | succ n ih =>
    have h0 : (r >>> n).getLsbD 0 = false := by
      rw [BitVec.getLsbD_ushiftRight]
      exact h n n.lt_succ_self
    rw [crcShifts_succ_last, ih fun k hk => h k (hk.trans n.lt_succ_self), crcShift, h0, BitVec.shiftRight_add]
    rfl

/-- The bit-serial form on the first `n` bits of `x`; the bits not yet taken in stay XORed below (R94). -/
theorem crcShifts_xor_eq_foldl_crcBit (n : Nat) (c x : Word) :
    crcShifts n (c ^^^ x) = (List.range n).foldl (fun r k => crcBit r (x.getLsbD k)) c ^^^ (x >>> n) := by
  induction n with
  | zero => simp [crcShifts]
  | succ n ih =>
    rw [crcShifts_succ_last, ih, crcShift_xor_eq_crcBit, List.range_succ, List.foldl_append]
    simp [BitVec.shiftRight_add]

/-! ### The bits after `n` iterations (R95) -/

/-- Between the feedback at bit 0 and the one at bit 13, iterations only shift. -/
theorem getLsbD_crcShifts_middle {i j : Nat} (h1 : 1 ≤ i) (h13 : i + j ≤ 13) (n : Nat) (r : Word) :
    (crcShifts (n + j) r).getLsbD i = (crcShifts n r).getLsbD (i + j) := by
  induction j generalizing i with
  | zero => rfl
  | succ j ih =>
    rw [← Nat.add_assoc n, crcShifts_succ_last, getLsbD_crcShift, getLsbD_crcPoly_middle h1 (by omega),
      ih (by omega) (by omega)]
    simp [Nat.add_comm, Nat.add_left_comm]

/-- The parity of bits 0 to `k`. -/
def lowParity (r : Word) : Nat → Bool
  | 0 => r.getLsbD 0
  | k + 1 => lowParity r k ^^ r.getLsbD (k + 1)

/-- Bit 0 gathers the parity of the word's low bits, one bit an iteration. -/
theorem getLsbD_crcShifts_zero {k : Nat} (hk : k ≤ 13) (r : Word) :
    (crcShifts k r).getLsbD 0 = lowParity r k := by
  induction k with
  | zero => rfl
  | succ k ih =>
    have h1 : (crcShifts k r).getLsbD 1 = r.getLsbD (k + 1) := by
      have h := getLsbD_crcShifts_middle (j := k) (le_refl 1) (by omega) 0 r
      rwa [Nat.zero_add, Nat.add_comm 1 k] at h
    rw [crcShifts_succ_last, getLsbD_crcShift, h1, ih (by omega), lowParity, Bool.xor_comm]
    exact congrArg (· ^^ _) (Bool.and_true _)

theorem getLsbD_crcShifts_fifteen (n : Nat) (r : Word) :
    (crcShifts (n + 1) r).getLsbD 15 = (crcShifts n r).getLsbD 0 := by
  rw [crcShifts_succ_last, getLsbD_crcShift]
  simp [crcPoly]

theorem getLsbD_crcShifts_fourteen (n : Nat) (r : Word) :
    (crcShifts (n + 1) r).getLsbD 14 = (crcShifts n r).getLsbD 15 := by
  rw [crcShifts_succ_last, getLsbD_crcShift]
  simp [crcPoly]

theorem getLsbD_crcShifts_thirteen (n : Nat) (r : Word) :
    (crcShifts (n + 1) r).getLsbD 13 = ((crcShifts n r).getLsbD 14 ^^ (crcShifts n r).getLsbD 0) := by
  rw [crcShifts_succ_last, getLsbD_crcShift]
  simp [crcPoly]

/-- Bits 1 to 5 after a byte's iterations were 8 places higher. -/
theorem getLsbD_crcShifts_eight_low {i : Nat} (h1 : 1 ≤ i) (h5 : i ≤ 5) (r : Word) :
    (crcShifts 8 r).getLsbD i = r.getLsbD (i + 8) := by
  have h := getLsbD_crcShifts_middle (j := 8) h1 (by omega) 0 r
  rwa [Nat.zero_add, show crcShifts 0 r = r from rfl] at h

/-- Bits 8 to 13 after a byte's iterations: two parities meet at bit 13, leave the two bits by which they
differ, and are shifted on. -/
theorem getLsbD_crcShifts_eight_pair {m : Nat} (hm : m ≤ 5) (r : Word) :
    (crcShifts 8 r).getLsbD (m + 8) = (r.getLsbD (m + 1) ^^ r.getLsbD (m + 2)) := by
  have h := getLsbD_crcShifts_middle (i := m + 8) (j := 5 - m) (by omega) (by omega) (m + 3) r
  rw [show m + 3 + (5 - m) = 8 by omega, show m + 8 + (5 - m) = 13 by omega] at h
  rw [h, getLsbD_crcShifts_thirteen, getLsbD_crcShifts_fourteen, getLsbD_crcShifts_fifteen,
    getLsbD_crcShifts_zero (by omega), getLsbD_crcShifts_zero (by omega)]
  simp [lowParity]

/-- Bits 6 and 7 after a byte's iterations: a parity meets bit 14, then bit 15, at bit 13. -/
theorem getLsbD_crcShifts_eight_six (r : Word) :
    (crcShifts 8 r).getLsbD 6 = (r.getLsbD 0 ^^ r.getLsbD 14) := by
  rw [getLsbD_crcShifts_middle (i := 6) (j := 7) (by decide) (by decide) 1 r, getLsbD_crcShifts_thirteen,
    crcShifts, Bool.xor_comm]

theorem getLsbD_crcShifts_eight_seven (r : Word) :
    (crcShifts 8 r).getLsbD 7 = (r.getLsbD 0 ^^ r.getLsbD 1 ^^ r.getLsbD 15) := by
  rw [getLsbD_crcShifts_middle (i := 7) (j := 6) (by decide) (by decide) 2 r, getLsbD_crcShifts_thirteen,
    getLsbD_crcShifts_fourteen, getLsbD_crcShifts_zero (by decide), crcShifts, Bool.xor_comm]
  rfl

/-! ## `crc_byte` and the fold -/

/-- Each of register and byte can be told from the result and the other. -/
theorem crcByte_injective_register (b : Byte) : Function.Injective fun c : Word => crcByte c b := fun _ _ h =>
  (BitVec.xor_left_inj _).mp (crcShifts_injective 8 h)

theorem crcByte_injective_byte (c : Word) : Function.Injective (crcByte c) := fun _ _ h =>
  zext16_injective ((BitVec.xor_right_inj _).mp (crcShifts_injective 8 h))

theorem crc16_append (s t : List Byte) : crc16 (s ++ t) = crcFold (crc16 s) t := List.foldl_append

theorem crcFold_injective (s : List Byte) : Function.Injective fun c : Word => crcFold c s := by
  induction s with
  | nil => exact Function.injective_id
  | cons b s ih => exact ih.comp (crcByte_injective_register b)

/-- `crc_byte` of a word by its own low byte is its high byte: there is no one to feed back (R99). -/
theorem crcByte_beWord_low (h l : Byte) : crcByte (beWord h l) l = zext16 h := by
  have hlow (k : Nat) (hk : k < 8) : (beWord h l ^^^ zext16 l).getLsbD k = false := by
    simp only [BitVec.getLsbD_xor, getLsbD_beWord, getLsbD_zext16, if_pos hk, Bool.xor_self]
  rw [crcByte_eq_shifts, crcShifts_of_low_zero hlow]
  apply BitVec.eq_of_getLsbD_eq
  intro k _
  simp only [BitVec.getLsbD_ushiftRight, BitVec.getLsbD_xor, getLsbD_beWord, getLsbD_zext16]
  simp

/-- The result is a byte only where `l` is the low byte of `c`, and then it is the high byte (R99). -/
theorem crcByte_eq_zext16_iff (c : Word) (l h : Byte) : crcByte c l = zext16 h ↔ c = beWord h l := by
  rw [← crcByte_beWord_low h l]
  exact (crcByte_injective_register l).eq_iff

theorem crcByte_eq_zero_iff (c : Word) (b : Byte) : crcByte c b = 0#16 ↔ c = zext16 b := by
  have h0 : crcByte (zext16 b) b = 0#16 := by
    rw [crcByte_eq_shifts, BitVec.xor_self]
    rfl
  rw [← h0]
  exact (crcByte_injective_register b).eq_iff

/-! ## `validate` -/

theorem wireBytes_injective : Function.Injective wireBytes := by
  intro c d h
  obtain ⟨hlow, hhigh⟩ : lowByte c = lowByte d ∧ highByte c = highByte d := by simpa [wireBytes] using h
  rw [← beWord_high_low c, ← beWord_high_low d, hlow, hhigh]

theorem wireBytes_beWord (h l : Byte) : wireBytes (beWord h l) = [l, h] := by
  simp only [wireBytes, lowByte_beWord, highByte_beWord]

/-- R97 in one word: the bytes at the end are those of the CRC of the rest. -/
theorem validate_append_wireBytes (s : List Byte) (c : Word) :
    validate (s ++ wireBytes c) = true ↔ crc16 s = c := by
  rw [validate_eq_true_iff, List.length_append, wireBytes_length, Nat.add_sub_cancel, List.drop_left,
    List.take_left, wireBytes_injective.eq_iff]
  exact ⟨fun h => h.2.symm, fun h => ⟨Nat.le_add_left _ _, h.symm⟩⟩

/-- A frame's last two bytes are the wire bytes of one word (R96). -/
theorem exists_append_wireBytes {f : List Byte} (h : 2 ≤ f.length) : ∃ s c, f = s ++ wireBytes c := by
  have hlen : (f.drop (f.length - 2)).length = 2 := by
    rw [List.length_drop]
    omega
  obtain ⟨lo, hi, hlast⟩ := List.length_eq_two.mp hlen
  exact ⟨f.take (f.length - 2), beWord hi lo, by rw [wireBytes_beWord, ← hlast, List.take_append_drop]⟩

/-- The residue, with the last two bytes as one word (R99). -/
theorem crc16_append_wireBytes_eq_zero_iff (s : List Byte) (c : Word) :
    crc16 (s ++ wireBytes c) = 0#16 ↔ crc16 s = c := by
  rw [crc16_append, wireBytes, crcFold_cons, crcFold_cons, crcFold_nil, crcByte_eq_zero_iff,
    crcByte_eq_zext16_iff, beWord_high_low]

/-! ## The functions of unit GEN -/

/-- Settles O25: the eight bits of `b` are all taken in, so nothing stays below. -/
theorem crcByteIsEightBitSteps : Obligations.CrcByteIsEightBitSteps := by
  intro c b
  have hrest : zext16 b >>> 8 = 0#16 := by
    apply BitVec.eq_of_getLsbD_eq
    intro k _
    simp only [BitVec.getLsbD_ushiftRight, getLsbD_zext16]
    simp
  simp only [crcByte_eq_shifts, crcShifts_xor_eq_foldl_crcBit, hrest, BitVec.xor_zero, getLsbD_zext16]

/-- Settles O26: in terms of `r = c ^ zext_16(b)`, whose low byte is `x` and whose high byte is that of `c`. -/
theorem crcByteEquations : Obligations.CrcByteEquations := by
  intro c b x hx
  generalize hr : c ^^^ zext16 b = r
  have hlow : x = r.getLsbD := by
    funext k
    rw [hx, ← hr, BitVec.getLsbD_xor, getLsbD_zext16]
  have hhigh {k : Nat} (hk : 8 ≤ k) : c.getLsbD k = r.getLsbD k := by
    rw [← hr, BitVec.getLsbD_xor, getLsbD_zext16, BitVec.getLsbD_of_ge b k hk, Bool.xor_false]
  have hlow5 {i : Nat} (h1 : 1 ≤ i) (h5 : i ≤ 5) := getLsbD_crcShifts_eight_low h1 h5 r
  have hpair {m : Nat} (hm : m ≤ 5) := getLsbD_crcShifts_eight_pair hm r
  have h14 := (getLsbD_crcShifts_fourteen 7 r).trans (getLsbD_crcShifts_fifteen 6 r)
  have h15 := getLsbD_crcShifts_fifteen 7 r
  rw [crcByte_eq_shifts, hr, hlow]
  simp only [hhigh, Nat.reduceLeDiff]
  exact ⟨getLsbD_crcShifts_zero (by decide) r,
    hlow5 (i := 1) (by decide) (by decide), hlow5 (i := 2) (by decide) (by decide),
    hlow5 (i := 3) (by decide) (by decide), hlow5 (i := 4) (by decide) (by decide),
    hlow5 (i := 5) (by decide) (by decide), getLsbD_crcShifts_eight_six r, getLsbD_crcShifts_eight_seven r,
    hpair (m := 0) (by decide), hpair (m := 1) (by decide), hpair (m := 2) (by decide),
    hpair (m := 3) (by decide), hpair (m := 4) (by decide), hpair (m := 5) (by decide),
    h14.trans (getLsbD_crcShifts_zero (by decide) r), h15.trans (getLsbD_crcShifts_zero (by decide) r)⟩

/-- Settles O31: the two bytes at the flipped bit differ, and from there on the CRCs do. -/
theorem singleBitFlipIsDetected : Obligations.SingleBitFlipIsDetected := by
  intro s t b k hk
  have hbit : b ^^^ (1#8 <<< k) ≠ b := by
    intro h
    have hflip := congrArg (BitVec.getLsbD · k) h
    simp [hk] at hflip
  have hcrc : crc16 (s ++ [b ^^^ (1#8 <<< k)] ++ t) ≠ crc16 (s ++ [b] ++ t) := by
    simp only [crc16_append]
    intro h
    exact hbit (crcByte_injective_byte _ (crcFold_injective t h))
  exact Bool.eq_false_iff.mpr fun h => hcrc ((validate_append_wireBytes _ _).mp h)

/-- Settles O32: an injective map of the 65536 words is onto. -/
theorem crcByteIsBijective : Obligations.CrcByteIsBijective := fun b =>
  Finite.injective_iff_bijective.mp (crcByte_injective_register b)

/-- Settles O33: both sides say that the last two bytes are the CRC of the others. -/
theorem validateIffResidueZero : Obligations.ValidateIffResidueZero := by
  intro f hf
  obtain ⟨s, c, rfl⟩ := exists_append_wireBytes hf
  rw [validate_append_wireBytes]
  exact (crc16_append_wireBytes_eq_zero_iff s c).symm

/-- Settles O24: the pseudocode's loop is the iteration; the example is evaluated. -/
theorem crcByteIsR91 : Obligations.CrcByteIsR91 :=
  ⟨fun c b => crcShifts_eq_iterate 8 (c ^^^ zext16 b), by decide, by decide⟩

/-- Settles O27: a fold from the left; the example is evaluated. -/
theorem crc16IsR92 : Obligations.Crc16IsR92 :=
  ⟨rfl, crc16_append_singleton, by decide⟩

/-- Settles O28: a fold over a concatenation goes on from the first part's result. -/
theorem crc16Streams : Obligations.Crc16Streams := crc16_append

theorem validate_append_pair (s : List Byte) (l h : Byte) :
    validate (s ++ [l, h]) = true ↔ l = lowByte (crc16 s) ∧ h = highByte (crc16 s) := by
  rw [← wireBytes_beWord, validate_append_wireBytes, ← wireBytes_injective.eq_iff, wireBytes_beWord]
  simp [wireBytes, eq_comm]

/-- Settles O29: the two-byte case is the general one with `crc16` of nothing, 0xFFFF. -/
theorem validateIsR97 : Obligations.ValidateIsR97 :=
  ⟨fun _ => validate_short, validate_append_pair, validate_append_pair []⟩

/-- Settles O30: the sequence is a body followed by its CRC. -/
theorem crcRoundTrip : Obligations.CrcRoundTrip := validate_withCrc

/-! ## The commands of unit GEN -/

/-- An illegal write sets ILL and nothing else (R153). -/
theorem exec_illegal_write {a : Byte} {d : Word} (h : illegalAccess true a d = true) (s : State) :
    exec (decodeCmd (cmdWord true a d)) s = .next s.setIll.ack := by
  rw [decodeCmd_write, decodeWrite_of_illegalAccess h]
  rfl

/-- Settles O34: `crc.init` by its definition; every other value of `D` is reserved. -/
theorem crcInitLoadsOnes : Obligations.CrcInitLoadsOnes :=
  ⟨by decide, fun _ => rfl, fun d hd s => exec_illegal_write (by simp [illegalAccess, hd]) s⟩

/-- Settles O35: the decoder keeps `D[7:0]`, the command is one `crc_byte`; the values are evaluated. -/
theorem crcUpdFoldsOneByte : Obligations.CrcUpdFoldsOneByte :=
  ⟨fun d => decodeCmd_write 0x01#8 d, fun _ _ => rfl, by decide, by decide, by decide⟩

/-- Settles O36: each read answers from `CRC` alone; the values are evaluated. -/
theorem crcReadsReturnTheRegister : Obligations.CrcReadsReturnTheRegister :=
  ⟨fun d => ⟨decodeCmd_read 0x02#8 d, decodeCmd_read 0x03#8 d, decodeCmd_read 0x04#8 d⟩,
    fun _ => ⟨rfl, rfl, rfl⟩, by decide +kernel, by decide +kernel⟩

end Machine

end Sys2Proof

/-! SUPPORT. The statements of 41_frame_check.md: the dispatch (R111), the life of a frame (R110, R113 to R116),
the verdict in the order of its tests (R117), what closing a frame latches, and the bytes still missing
(R112). -/

namespace Sys2Proof

namespace Machine

/-! ## The error flag and the tests of R117 -/

/-- The error flag as R117 writes it. -/
theorem errorFlag_eq_true_iff (b : Byte) : errorFlag b = true ↔ b &&& 0x80#8 = 0x80#8 := by
  revert b
  decide

theorem errorFlag_eq_false_iff (b : Byte) : errorFlag b = false ↔ b &&& 0x80#8 ≠ 0x80#8 := by
  rw [← Bool.not_eq_true, errorFlag_eq_true_iff]

/-- Step 1 of R117. -/
theorem headerVerdict_of_short {f : List Byte} (h : f.length < 3) (k : Layout) (ovr v : Bool) :
    headerVerdict k f ovr v = .truncated := by
  match f, h with
  | [], _ => rfl
  | [_], _ => rfl
  | [_, _], _ => rfl

/-- Steps 2 to 5 of R117, for a frame that has a header. -/
theorem headerVerdict_of_header {f : List Byte} {f1 f2 : Byte} (h1 : f[1]? = some f1) (h2 : f[2]? = some f2)
    (k : Layout) (ovr v : Bool) :
    headerVerdict k f ovr v =
      if ovr then .lengthMismatch
      else if errorFlag f1 then errorVerdict f.length v
      else if !lengthFits k f.length f2 then .lengthMismatch
      else if !v then .corruptFrame
      else .ok := by
  match f, h1, h2 with
  | f0 :: g1 :: g2 :: rest, h1, h2 =>
    obtain rfl : g1 = f1 := Option.some.inj h1
    obtain rfl : g2 = f2 := Option.some.inj h2
    rfl

/-- Step 2 of R117. -/
theorem headerVerdict_of_overflow {f : List Byte} (h : 3 ≤ f.length) (k : Layout) (v : Bool) :
    headerVerdict k f true v = .lengthMismatch :=
  headerVerdict_of_header (List.getElem?_eq_getElem (by omega)) (List.getElem?_eq_getElem (by omega)) k true v

/-- Settles O38: step 0 is the class RAW; each other step is an equation of the header's verdict. -/
theorem verdictFollowsTheOrderOfR117 : Obligations.VerdictFollowsTheOrderOfR117 := by
  intro f ovr v
  refine ⟨rfl, fun k => verdict_ne_none k f ovr v, fun k hk => ?_⟩
  rw [verdict_of_ne_raw hk]
  refine ⟨fun hn => headerVerdict_of_short hn k ovr v, ?_, fun f1 f2 _ hovr h1 h2 => ?_⟩
  · rintro hn rfl
    exact headerVerdict_of_overflow hn k v
  subst hovr
  simp only [← errorFlag_eq_true_iff, ← errorFlag_eq_false_iff, headerVerdict_of_header h1 h2,
    errorVerdict, lenErrorReply]
  refine ⟨?_, ?_, ?_, ?_, ?_, ?_⟩
  · intro herr hlen
    simp [herr, hlen]
  · intro herr hlen hv
    simp [herr, hlen, hv]
  · intro herr hlen hv
    simp [herr, hlen, hv]
  · rintro herr rfl hlen
    simp [herr, lengthFits, hlen]
  · rintro l herr rfl hlen
    simp [herr, lengthFits, hlen]
  · intro herr hfits
    have hfit : lengthFits k f.length f2 = true := by
      rcases hfits with ⟨rfl, hlen⟩ | rfl
      · exact decide_eq_true hlen
      · exact decide_eq_true rfl
    cases v <;> simp [herr, hfit]

/-- The row `fc.error_reply` in a class that reads headers: steps 1, 2 and 3e to 5e of R117, by the CRC. -/
theorem errorReplyVerdict_iff {k : Layout} (hk : k ≠ .raw) (f : List Byte) (ovr : Bool) {r : Result}
    (hr : errorReplyVerdict k f.length ovr (crcVerdict ovr f) = r) :
    (r = .protocolError ↔ f.length = 5 ∧ ovr = false ∧ validate f = true) ∧
    (r = .corruptFrame ↔ f.length = 5 ∧ ovr = false ∧ validate f = false) ∧
    (r = .truncated ↔ f.length < 3) ∧ r ≠ .ok ∧ r ≠ .none := by
  have hsteps : errorReplyVerdict k f.length ovr (crcVerdict ovr f) =
      if f.length < 3 then .truncated else if ovr then .lengthMismatch
      else errorVerdict f.length (crcVerdict ovr f) := by
    cases k with
    | raw => exact absurd rfl hk
    | read => rfl
    | fixed l => rfl
  rw [← hr, hsteps]
  by_cases hn : f.length < 3
  · have hne : f.length ≠ 5 := by omega
    simp [hn, hne]
  cases ovr with
  | true => simp [hn]
  | false =>
    by_cases h5 : f.length = 5
    · cases hv : validate f <;> simp [h5, hv, errorVerdict, lenErrorReply, crcVerdict]
    · simp [hn, h5, errorVerdict, lenErrorReply]

/-! ## The match flags -/

theorem passed_eq_true_iff (r : Result) : passed r = true ↔ r = .ok ∨ r = .protocolError := by
  cases r <;> simp [passed]

/-- `good`, as R115 writes it. -/
theorem goodFrame_eq (k : Layout) (r : Result) :
    goodFrame k r = (decide (k ≠ .raw) && decide (r = .ok ∨ r = .protocolError)) := by
  rw [Bool.eq_iff_iff]
  simp [goodFrame, passed_eq_true_iff]

theorem goodFrame_eq_true_iff (k : Layout) (r : Result) :
    goodFrame k r = true ↔ k ≠ .raw ∧ (r = .ok ∨ r = .protocolError) := by
  simp [goodFrame_eq]

/-- A verdict that is not `OK` is good where it is `PROTOCOL_ERROR` (R115). -/
theorem goodFrame_eq_true_iff_of_ne_ok {k : Layout} {r : Result} (hk : k ≠ .raw) (hr : r ≠ .ok) :
    goodFrame k r = true ↔ r = .protocolError := by
  simp [goodFrame_eq_true_iff, hk, hr]

/-- A good frame has a header, and a length its layout allows (R115, R117). -/
theorem goodFrame_verdict {k : Layout} {f : List Byte} {ovr v : Bool}
    (h : goodFrame k (verdict k f ovr v) = true) :
    f.length = 5 ∨ ∃ f2, f[2]? = some f2 ∧ lengthFits k f.length f2 = true := by
  obtain ⟨hk, hok | herr⟩ := (goodFrame_eq_true_iff _ _).mp h
  · exact .inr (verdict_ok_lengthFits hk hok)
  · obtain ⟨-, hlen, -⟩ := verdict_protocolError herr
    exact .inl hlen

theorem State.three_le_len_of_goodFrame {s : State} {k : Layout} {ovr v : Bool}
    (h : goodFrame k (verdict k s.frame ovr v) = true) : 3 ≤ s.len := by
  rw [← s.frame_length]
  rcases goodFrame_verdict h with hlen | ⟨f2, h2, -⟩
  · omega
  · obtain ⟨hlt, -⟩ := List.getElem?_eq_some_iff.mp h2
    exact hlt

/-- `good` implies `n >= 4` (R115), by the least reply lengths of R5. -/
theorem four_le_length_of_goodFrame {c : Config} {fc : Byte} {f : List Byte} {ovr v : Bool} (hc : c.wf)
    (h : goodFrame (classOf c fc) (verdict (classOf c fc) f ovr v) = true) : 4 ≤ f.length := by
  obtain ⟨hk, -⟩ := (goodFrame_eq_true_iff _ _).mp h
  rcases goodFrame_verdict h with hlen | ⟨f2, -, hfits⟩
  · omega
  · cases hcls : classOf c fc with
    | raw => exact absurd hcls hk
    | read =>
      rw [hcls, lengthFits, decide_eq_true_eq] at hfits
      omega
    | fixed l =>
      rw [hcls, lengthFits, decide_eq_true_eq] at hfits
      obtain ⟨-, ⟨hwrite, -⟩, ⟨hcalib, -⟩, ⟨hreset, -⟩, -⟩ := hc
      have hl := classOf_fixed hcls
      omega

section
variable {s : State} {good : Bool} (h : good = true → 3 ≤ s.len)
include h

/-- `AMATCH` compares the first byte of FB, which a good frame has (R115). -/
theorem amatchOf_frame (a : Byte) : amatchOf good s.frame[0]? a = (good && decide (s.fbByte 0 = a)) := by
  cases good with
  | false => rfl
  | true => rw [s.frame_getElem? 0 (by have := h rfl; omega)]; simp [amatchOf]

/-- `FMATCH` compares the second byte of FB, which a good frame has (R115). -/
theorem fmatchOf_frame (fc : Byte) :
    fmatchOf good s.frame[1]? fc = (good && decide (s.fbByte 1 &&& 0x7F#8 = fc &&& 0x7F#8)) := by
  cases good with
  | false => rfl
  | true => rw [s.frame_getElem? 1 (by have := h rfl; omega)]; simp [fmatchOf, functionOf]
end

/-! ## The instructions that close a frame -/

/-- Every closing instruction but `fc.error_reply` closes the frame by its layout (R111, R115). -/
theorem exec_of_layout {i : Instr} {s : State} {k : Layout} {fc : Byte} (h : i.layout s = some (k, fc)) :
    exec i s = closeFrame k fc s := by
  cases i with
  | frmEnd | fcReadHolding | fcReadInput | fcWriteSingle | fcCalibration | fcResetEnergy | fcOther =>
    cases h; rfl
  | _ => cases h

/-- On a closed frame no closing instruction has an effect (R116). -/
theorem exec_of_closes_of_done {i : Instr} {s : State} (hi : i.closes = true) (hd : s.done = true) :
    exec i s = .next s.ack := by
  cases i with
  | frmEnd | fcReadHolding | fcReadInput | fcWriteSingle | fcCalibration | fcResetEnergy | fcOther =>
    exact closeFrame_done hd
  | fcErrorReply c => exact closeErrorReply_done hd
  | _ => cases hi

theorem exec_frmEnd_open {s : State} (hd : s.done = false) (hl : s.len ≤ s.cfg.frameMax) :
    exec .frmEnd s = .next (s.latch (classOf s.cfg s.reqFc) s.reqFc s.frame[0]? s.frame[1]?
      (verdict (classOf s.cfg s.reqFc) s.frame s.ovr (crcVerdict s.ovr s.frame))
      (crcVerdict s.ovr s.frame)).ack :=
  closeFrame_open hd hl

/-- Settles O40: a closing instruction on a closed frame only completes. -/
theorem secondFrmEndDoesNothing : Obligations.SecondFrmEndDoesNothing := fun _ hd =>
  exec_of_closes_of_done rfl hd

/-- Settles O22: the row of `REQ_FC` closes by its class, and an error code selects `fc.error_reply`. -/
theorem frmEndDispatchesOnFunctionCode : Obligations.FrmEndDispatchesOnFunctionCode :=
  ⟨fun s _ => (exec_decodeReqFc s.reqFc s).symm, fun _ _ _ _ h1 => (closeErrorReply_eq_closeFrame _ h1).symm⟩

/-- Settles O37: the codes by their definition; every code outside R66 is of class RAW. -/
theorem classOfIsR111 : Obligations.ClassOfIsR111 := by
  refine ⟨⟨rfl, rfl, rfl, rfl⟩, fun s t hd he => ?_, fun c => ⟨rfl, rfl, rfl, rfl, rfl, ?_, rfl, rfl, rfl⟩⟩
  · rcases closeFrame_next he with ⟨hd', -⟩ | ⟨-, -, rfl⟩
    · exact Bool.noConfusion (hd.symm.trans hd')
    · rfl
  · intro fc h03 h04 h06 h41 h42
    exact classOf_of_not_knownFunction c (by simp [knownFunction, h03, h04, h06, h41, h42])

/-- The example of R115: an error reply whose address and function match the request. -/
theorem exec_frmEnd_example {s : State} (hd : s.done = false) (hl : s.len ≤ s.cfg.frameMax)
    (ha : s.reqAddr = 0xF8#8) (hfc : s.reqFc = 0x04#8) (ho : s.ovr = false) (hst : s.stale = false)
    (hf : s.frame = [0xF8#8, 0x84#8, 0x02#8, 0x12#8, 0xF0#8]) :
    ∃ t, exec .frmEnd s = .next t ∧ t.result = .protocolError ∧ t.crcOk = true ∧ t.cls = .read ∧
      t.amatch = true ∧ t.fmatch = true ∧ t.done = true ∧
      exec .frmStat t = .next { t with ready := true, rdata := some 0x071B#16 } := by
  have hcls : classOf s.cfg s.reqFc = .read := by rw [hfc]; rfl
  have hk : classOf s.cfg s.reqFc ≠ .raw := by simp [hcls]
  have h0 : s.frame[0]? = some 0xF8#8 := by rw [hf]; rfl
  have h1 : s.frame[1]? = some 0x84#8 := by rw [hf]; rfl
  have hend := exec_frmEnd_of_validate (r := .protocolError) hd ho hl hk (by rw [hf]; decide +kernel)
    (by rw [headerVerdict_of_errorFlag _ _ _ h1 (by decide), hf]; rfl)
  have hread : (s.judged .protocolError).cls = .read := by simp [hcls, classOfLayout]
  have ham : (s.judged .protocolError).amatch = true := by
    rw [State.judged_amatch hk rfl h0, ha]; rfl
  have hfm : (s.judged .protocolError).fmatch = true := by
    rw [State.judged_fmatch hk rfl h1, hfc]; rfl
  have hovr : (s.judged .protocolError).ovr = false := ho
  have hstale : (s.judged .protocolError).stale = false := hst
  have hdone : (s.judged .protocolError).done = true := rfl
  have hstat : statWord (s.judged .protocolError) = 0x071B#16 := by
    rw [statWord, hread, ham, hfm, hovr, hstale, State.judged_result, State.judged_crcOk, hdone]
    decide
  exact ⟨_, hend, rfl, rfl, hread, ham, hfm, hdone, hstat ▸ rfl⟩

/-- Settles O39: the flags compare the bytes of FB, which a good frame has. -/
theorem frmEndLatchesTheVerdict : Obligations.FrmEndLatchesTheVerdict := by
  refine ⟨decodeCmd_of_encode (i := .frmEnd) rfl rfl, fun s hd hl v r good hv hr hgood => ?_,
    fun s hd hl ha hfc ho hst hf => exec_frmEnd_example hd hl ha hfc ho hst hf⟩
  obtain rfl : v = crcVerdict s.ovr s.frame := hv
  rw [← goodFrame_eq] at hgood
  subst hr hgood
  refine ⟨?_, fun hc hgood => s.frame_length ▸ four_le_length_of_goodFrame hc hgood⟩
  rw [exec_frmEnd_open hd hl, State.latch, amatchOf_frame State.three_le_len_of_goodFrame,
    fmatchOf_frame State.three_le_len_of_goodFrame]
  rfl

/-- Settles O43: the rows by layout close as `frm.end` does; `fc.error_reply` by its own verdict. -/
theorem functionCodeRowsLatch : Obligations.FunctionCodeRowsLatch := by
  refine ⟨fun i s hi _ hd => exec_of_closes_of_done hi hd, fun s hd hl =>
    ⟨fun i k fc hrow => ?_, fun c hk => ?_, fun c hk => ?_⟩⟩
  · have hlay : i.layout s = some (k, fc) := by
      rcases hrow with ⟨rfl, rfl, rfl⟩ | ⟨rfl, rfl, rfl⟩ | ⟨rfl, rfl, rfl⟩ | ⟨rfl, rfl, rfl⟩ |
        ⟨rfl, rfl, rfl⟩ | ⟨rfl, rfl⟩ <;> rfl
    refine ⟨_, (exec_of_layout hlay).trans (closeFrame_open hd hl), rfl, rfl, rfl, ?_, ?_, rfl⟩
    · simp [fmatchOf_frame State.three_le_len_of_goodFrame, goodFrame_eq_true_iff, and_assoc]
    · simp [amatchOf_frame State.three_le_len_of_goodFrame, goodFrame_eq_true_iff, and_assoc]
  · have hexec : exec (.fcErrorReply c) s = _ := closeErrorReply_open hd hl
    generalize hr : errorReplyVerdict (classOf s.cfg s.reqFc) s.frame.length s.ovr (crcVerdict s.ovr s.frame) = r
      at hexec
    obtain ⟨hprot, hcorrupt, htrunc, hok, hnone⟩ := errorReplyVerdict_iff hk s.frame s.ovr hr
    rw [s.frame_length] at hprot hcorrupt htrunc
    have hgood := goodFrame_eq_true_iff_of_ne_ok hk hok
    have hlen : goodFrame (classOf s.cfg s.reqFc) r = true → 3 ≤ s.len := fun h => by
      obtain ⟨h5, -⟩ := hprot.mp (hgood.mp h)
      omega
    refine ⟨_, hexec, hprot, hcorrupt, htrunc, hok, hnone, rfl, rfl, ?_, ?_, rfl⟩
    · simp [amatchOf_frame hlen, hgood]
    · simp [fmatchOf, functionOf, hgood]
  · have hexec : exec (.fcErrorReply c) s = _ := closeErrorReply_open hd hl
    have hresult : errorReplyVerdict .raw s.frame.length s.ovr (crcVerdict s.ovr s.frame) =
        if s.ovr = false ∧ validate s.frame = true then .ok else .corruptFrame := by
      simp [errorReplyVerdict, crcVerdict]
    rw [hexec, hk, hresult]
    rfl

/-! ## The life of a frame (R110, R113, R114) -/

/-- The bytes of FB after an accepted push (R114). -/
theorem State.fbByte_store (s : State) (b : Byte) (a : Nat) :
    (s.store b).fbByte a = if a = s.len then b else s.fbByte a := by
  split
  · next h => rw [h]; exact Memory.byteAt_write_same _ _ _
  · next h => exact Memory.byteAt_write_other _ _ _ _ h

/-- Settles O41: the table of R113 is `State.clearFrame`. -/
theorem frmStartClears : Obligations.FrmStartClears :=
  ⟨decodeCmd_of_encode (i := .frmStart) rfl rfl, fun _ => rfl⟩

/-- Settles O42: the two drops and the store; the CRC of the first byte is evaluated. -/
theorem frmPushStoresOrDrops : Obligations.FrmPushStoresOrDrops := by
  refine ⟨fun d => decodeCmd_write 0x11#8 d, fun s b hd => execFrmPush_done hd,
    fun s b hd hl => execFrmPush_full hd hl,
    fun s b hd hl => ⟨_, execFrmPush_store hd hl, rfl, s.fbByte_store b⟩, fun s hd hlen hpos hrx => ?_⟩
  refine ⟨_, execFrmPush_store hd (hlen ▸ hpos), (s.fbByte_store _ 0).trans (if_pos hlen.symm), ?_, ?_⟩
  · simp [hlen]
  · rw [State.ack_rxcrc, State.store_rxcrc, hrx]
    decide

/-- Settles O14: the nine cells are the rules of `frm.start`, `frm.push` and `frm.end`; of the other shapes of
a next state none touches an element of the frame. -/
theorem chkStateMachine : Obligations.ChkStateMachine := by
  refine ⟨fun s => ⟨_, rfl, rfl, rfl, rfl, rfl, rfl, rfl, rfl, rfl, rfl, rfl, rfl⟩,
    fun s b hd hl => ⟨_, execFrmPush_store hd hl, hd, rfl, s.frame_store b, rfl, rfl, rfl⟩,
    fun s b hd hl => ⟨_, execFrmPush_full hd hl, hd, rfl, rfl, rfl⟩,
    fun s b hd => ⟨_, execFrmPush_done hd, hd, rfl, rfl, rfl, rfl⟩,
    fun s hd hl => ⟨_, exec_frmEnd_open hd hl, rfl, verdict_ne_none _ _ _ _, rfl⟩,
    fun s hd => ⟨_, exec_of_closes_of_done rfl hd, hd, rfl⟩, fun i s t hstart hpush hcloses he => ?_⟩
  cases exec_effect he with
  | start hi => exact absurd hi hstart
  | stale b hi | overflow b hi | store b hi => exact absurd hi (hpush b)
  | closed hi => exact Bool.noConfusion (hcloses.symm.trans hi)
  | close k fc hk => exact Bool.noConfusion (hcloses.symm.trans (Instr.closes_of_layout hk))
  | closeError c hi => subst hi; cases hcloses
  | init | upd | answer | request | illWrite | illRead =>
    exact ⟨rfl, rfl, rfl, rfl, rfl, rfl, rfl, rfl, rfl, rfl, rfl⟩

/-! ## The bytes still missing (R112, R144) -/

/-- The header bytes as `expect_total` is given them: from three bytes on (R112). -/
def State.header (s : State) : Option (Byte × Byte) :=
  if s.len < 3 then none else some (s.fbByte 1, s.fbByte 2)

theorem State.header_of_lt {s : State} (h : s.len < 3) : s.header = none := if_pos h

theorem State.header_of_ge {s : State} (h : 3 ≤ s.len) : s.header = some (s.fbByte 1, s.fbByte 2) :=
  if_neg (Nat.not_lt.mpr h)

theorem readHeader_eq {s : State} (hm : 3 ≤ s.cfg.frameMax) : readHeader s = .ok s.header := by
  rcases Nat.lt_or_ge s.len 3 with h | h
  · rw [readHeader_of_lt h, State.header_of_lt h]
  · rw [readHeader_of_ge h hm, State.header_of_ge h]

/-- `frm.remain` returns what the expected total exceeds `LEN` by (R144). -/
theorem exec_frmRemain {s : State} (hm : 3 ≤ s.cfg.frameMax) :
    exec .frmRemain s = .next (s.answer
      (BitVec.ofNat 16 (expectTotal (classOf s.cfg s.reqFc) s.len s.header - s.len))) := by
  rw [exec_of_reads rfl, readValue, readHeader_eq hm]
  rfl

theorem expectTotal_of_short {k : Layout} (hk : k ≠ .raw) (n : Nat) : expectTotal k n none = 3 := by
  cases k with
  | raw => exact absurd rfl hk
  | read => rfl
  | fixed l => rfl

theorem expectTotal_of_errorFlag {k : Layout} (hk : k ≠ .raw) (n : Nat) {f1 : Byte} (f2 : Byte)
    (h : errorFlag f1 = true) : expectTotal k n (some (f1, f2)) = 5 := by
  cases k with
  | raw => exact absurd rfl hk
  | read => exact if_pos h
  | fixed l => exact if_pos h

/-- Natural subtraction is R112's difference, 0 where nothing is missing. -/
theorem ite_lt_sub (n t : Nat) : (if n < t then t - n else 0) = t - n := by
  split
  · rfl
  · omega

/-- Settles O51: each case is one of R112's expected totals. -/
theorem frmRemainCountsMissingBytes : Obligations.FrmRemainCountsMissingBytes := by
  refine ⟨fun d => decodeCmd_read 0x18#8 d, fun s hm =>
    ⟨expectTotal (classOf s.cfg s.reqFc) s.len s.header, ?_, ?_, ?_, ?_, ?_, ?_⟩⟩
  · rw [exec_frmRemain hm, ite_lt_sub]
    rfl
  · intro hc
    rw [hc]; rfl
  · intro hk hn
    rw [State.header_of_lt hn, expectTotal_of_short hk]
  · intro hk hn herr
    rw [State.header_of_ge hn, expectTotal_of_errorFlag hk _ _ ((errorFlag_eq_true_iff _).mpr herr)]
  · intro hc hn herr
    simp [hc, State.header_of_ge hn, expectTotal, (errorFlag_eq_false_iff _).mpr herr]
  · intro l hc hn herr
    simp [hc, State.header_of_ge hn, expectTotal, (errorFlag_eq_false_iff _).mpr herr]

end Machine

end Sys2Proof

/-! SUPPORT. The statements of 42_host_access.md: the illegal command (R153), the gate (R146), the registers of
the request and of the status (R140 to R145, R152, R155), and what the reads of a frame return (R147 to R150). -/

namespace Sys2Proof

/-! ## The illegal command (R153) -/

/-- A command word is the illegal command exactly where its access is one the register map does not define. -/
theorem decodeCmd_eq_ill_iff (wr : Bool) (a : Byte) (d : Word) :
    decodeCmd (cmdWord wr a d) = .ill wr a d ↔ illegalAccess wr a d = true := by
  constructor
  · intro h
    obtain ⟨hwf, -⟩ := decodeCmd_standsAt (cmdWord wr a d)
    rwa [h] at hwf
  · intro h
    exact decodeCmd_of_encode (i := .ill wr a d) h rfl

namespace Machine

/-- Settles O19: a word is illegal where its access is, and that access, written in numbers, is the list of
R153. -/
theorem illegalAccessesAreExactlyR153 : Obligations.IllegalAccessesAreExactlyR153 := by
  refine ⟨fun wr a d => ?_, fun wr a d s => ?_⟩
  · rw [decodeCmd_eq_ill_iff]
    cases wr with
    | true => simp [illegalAccess, BitVec.le_def, ← BitVec.toNat_inj, or_assoc, and_assoc]
    | false => simp [illegalAccess, BitVec.le_def, ← BitVec.toNat_inj, or_assoc]
  · cases wr with
    | true => rfl
    | false => rfl

/-! ## The CRC of a closed frame (R99, R145) -/

/-- On a closed frame that did not overflow the running CRC is the residue (R145). -/
theorem State.Inv.rxcrc_eq_zero_iff {s : State} (h : s.Inv) (hd : s.done = true) (hlen : 2 ≤ s.len)
    (ho : s.ovr = false) : s.rxcrc = 0x0000#16 ↔ s.crcOk = true := by
  have hresidue := validateIffResidueZero s.frame (by rwa [s.frame_length])
  rw [h.rxcrc_eq, ← hresidue, h.crcOk_eq hd, crcVerdict, ho, Bool.not_false, Bool.true_and]

/-- Settles O53: `CRC_OK` is `validate` of the frame, and `RXCRC` its residue. -/
theorem rxcrcIsZeroExactlyWhenCrcOk : Obligations.RxcrcIsZeroExactlyWhenCrcOk :=
  ⟨fun d => decodeCmd_read 0x19#8 d, fun _ => rfl, fun _ h hd hlen ho => h.rxcrc_eq_zero_iff hd hlen ho⟩

/-! ## The gate (R146) -/

theorem trusted_iff (s : State) : trusted s = true ↔
    s.done = true ∧ s.cls ≠ .raw ∧ (s.result = .ok ∨ s.result = .protocolError) := by
  simp [trusted, passed_eq_true_iff, and_assoc]

/-- A trusted frame carries a good CRC and did not overflow (R30 item 6). -/
theorem State.Inv.crc_of_trusted {s : State} (h : s.Inv) (ht : trusted s = true) :
    s.crcOk = true ∧ s.ovr = false := by
  obtain ⟨-, -, hres⟩ := (trusted_iff s).mp ht
  exact h.passed_crc ((passed_eq_true_iff _).mpr hres)

/-- `frm.hdr` with the gate shut (R146). -/
theorem exec_frmHdr_of_not_trusted {s : State} (ht : trusted s = false) :
    exec .frmHdr s = .next (s.answer 0#16) := by
  rw [exec_of_reads rfl, readValue, ht]
  rfl

/-- `frm.exc` of anything but a trusted error reply (R149). -/
theorem exec_frmExc_of_no_error {s : State} (h : ¬ (trusted s = true ∧ s.result = .protocolError)) :
    exec .frmExc s = .next (s.answer 0#16) := by
  rw [exec_of_reads rfl, readValue, if_neg (by simpa using h)]
  rfl

/-- A frame that is not both trusted and `OK` has no data (R148). -/
theorem infoFields_of_no_data {s : State} (h : ¬ (trusted s = true ∧ s.result = .ok)) :
    infoFields s = .ok (0, 0#8) := by
  cases ht : trusted s with
  | false => exact infoFields_of_not_trusted ht
  | true => exact infoFields_of_ne_ok fun hr => h ⟨ht, hr⟩

/-- Settles O54: each of the four reads tests the gate, and the invariant says what an open gate means. -/
theorem gateShutsUntrustedFrames : Obligations.GateShutsUntrustedFrames := by
  refine ⟨trusted_iff, fun s ht => ?_, fun s h ht => ?_⟩
  · have hp := infoFields_of_not_trusted ht
    exact ⟨exec_frmHdr_of_not_trusted ht, exec_frmInfo_of_infoFields hp,
      exec_frmExc_of_no_error (by simp [ht]), fun i => exec_frmReg_of_ge hp (Nat.zero_le _)⟩
  · obtain ⟨hcrc, hovr⟩ := h.crc_of_trusted ht
    exact ⟨hcrc, hovr, h.four_le_len ht⟩

/-! ## Nothing is missing of a trusted frame (R155) -/

/-- A frame that passes has exactly the bytes its header announces (R112, R117). -/
theorem expectTotal_of_passed {k : Layout} {f : List Byte} {ovr v : Bool} (hk : k ≠ .raw)
    (h : passed (verdict k f ovr v) = true) :
    ∃ f1 f2, f[1]? = some f1 ∧ f[2]? = some f2 ∧ expectTotal k f.length (some (f1, f2)) = f.length := by
  rw [verdict_of_ne_raw hk] at h
  obtain ⟨f0, f1, f2, rest, rfl, -, -, hcase⟩ := headerVerdict_passed h
  refine ⟨f1, f2, rfl, rfl, ?_⟩
  rcases hcase with ⟨herr, hlen, -⟩ | ⟨herr, hfits, -⟩
  · rw [expectTotal_of_errorFlag hk _ _ herr, hlen]
  · cases k with
    | raw => exact absurd rfl hk
    | read =>
      rw [lengthFits, decide_eq_true_eq] at hfits
      simp only [expectTotal, herr, Bool.false_eq_true, if_false]
      omega
    | fixed l =>
      rw [lengthFits, decide_eq_true_eq] at hfits
      simp only [expectTotal, herr, Bool.false_eq_true, if_false, hfits]

/-- Right after `frm.end` the bytes of a trusted frame are as many as its header announces. -/
theorem expectTotal_of_frmEnd_trusted {s t : State} (hd : s.done = false) (he : exec .frmEnd s = .next t)
    (ht : trusted t = true) : expectTotal (classOf t.cfg t.reqFc) t.len t.header = t.len := by
  obtain ⟨-, hcls, hres⟩ := (trusted_iff t).mp ht
  rcases closeFrame_next he with ⟨hd', -⟩ | ⟨-, -, rfl⟩
  · exact Bool.noConfusion (hd.symm.trans hd')
  have hk : classOf s.cfg s.reqFc ≠ .raw := mt (classOfLayout_eq_raw _).mpr hcls
  obtain ⟨f1, f2, h1, h2, htotal⟩ := expectTotal_of_passed hk ((passed_eq_true_iff _).mpr hres)
  have hlen : 3 ≤ s.len := by
    obtain ⟨hlt, -⟩ := List.getElem?_eq_some_iff.mp h2
    rwa [s.frame_length] at hlt
  rw [← State.fbByte_of_frame h1, ← State.fbByte_of_frame h2, ← State.header_of_ge hlen, s.frame_length] at htotal
  exact htotal

/-- Settles O52: the frame is as long as announced, and its good CRC leaves the residue 0. -/
theorem nothingRemainsOfATrustedFrame : Obligations.NothingRemainsOfATrustedFrame := by
  intro s t h hd he ht
  have hinv : t.Inv := h.of_exec he (by simp)
  obtain ⟨hm, -⟩ := hinv.cfg_wf
  obtain ⟨hcrc, hovr⟩ := hinv.crc_of_trusted ht
  obtain ⟨hdone, -⟩ := (trusted_iff t).mp ht
  have hlen := hinv.four_le_len ht
  have hrx : t.rxcrc = 0x0000#16 := (hinv.rxcrc_eq_zero_iff hdone (by omega) hovr).mpr hcrc
  constructor
  · rw [exec_frmRemain (by omega), expectTotal_of_frmEnd_trusted hd he ht, Nat.sub_self]
    rfl
  · rw [← hrx]
    rfl

/-! ## The data of a frame (R148, R150) -/

/-- `NREG` is at most 127 where no fixed reply is longer than 259 bytes (R148, log entry 9). -/
theorem State.Inv.nreg_le {s : State} (h : s.Inv) (hwrite : s.cfg.lenWriteReply ≤ 259)
    (hcalib : s.cfg.lenCalibReply ≤ 259) (hreset : s.cfg.lenResetReply ≤ 259) {p : Nat × Byte}
    (hp : infoFields s = .ok p) : p.1 ≤ 127 := by
  by_cases hdata : trusted s = true ∧ s.result = .ok
  · obtain ⟨ht, hr⟩ := hdata
    obtain ⟨hm, -⟩ := h.cfg_wf
    cases hc : s.cls with
    | raw => exact absurd hc ((trusted_iff s).mp ht).2.1
    | read =>
      obtain rfl := Except.ok.inj ((infoFields_of_read ht hr hc (by omega)).symm.trans hp)
      have hbyte := (s.fbByte 2).isLt
      simp only
      omega
    | fixed =>
      obtain rfl := Except.ok.inj ((infoFields_of_fixed ht hr hc).symm.trans hp)
      have hlen := h.fixed_length hr hc
      simp only
      omega
  · obtain rfl := Except.ok.inj ((infoFields_of_no_data hdata).symm.trans hp)
    exact Nat.zero_le _

/-- Settles O56: the fields by class, put into the image of `FRM_INFO`. -/
theorem frmInfoReturnsNregAndBc : Obligations.FrmInfoReturnsNregAndBc := by
  refine ⟨fun s hm nreg bc hcase => ?_, fun s h hwrite hcalib hreset ht hr => ⟨?_, fun hc => ?_⟩⟩
  · have himage : ∃ b : Byte, infoFields s = .ok (nreg, b) ∧ b.toNat = bc := by
      rcases hcase with ⟨ht, hr, hc, rfl, rfl⟩ | ⟨ht, hr, hc, rfl, rfl⟩ | ⟨hno, rfl, rfl⟩
      · exact ⟨_, infoFields_of_read ht hr hc hm, rfl⟩
      · exact ⟨_, infoFields_of_fixed ht hr hc, rfl⟩
      · exact ⟨_, infoFields_of_no_data hno, rfl⟩
    obtain ⟨b, hp, rfl⟩ := himage
    rw [exec_frmInfo_of_infoFields hp, infoWord_eq]
    rfl
  · have hbyte := (s.fbByte 2).isLt
    omega
  · exact h.nreg_le hwrite hcalib hreset (infoFields_of_fixed ht hr hc)

/-- `frm.reg` of a frame with data: the body word, before the CRC bytes, or 0 past the body (R150). -/
theorem State.Inv.exec_frmReg_body {s : State} (h : s.Inv) (ht : trusted s = true) (hr : s.result = .ok)
    {p : Nat × Byte} (hp : infoFields s = .ok p) {base : Nat} (hbase : bodyBase s.cls = base) (i : BitVec 7) :
    (i.toNat < p.1 →
      exec (.frmReg i) s = .next { s with
        ready := true, rdata := some (s.fbByte (base + 2 * i.toNat) ++ s.fbByte (base + 2 * i.toNat + 1)) } ∧
      base + 2 * i.toNat + 1 < s.len - 2) ∧
    (p.1 ≤ i.toNat →
      exec (.frmReg i) s = .next { s with ready := true, rdata := some 0x0000#16 }) := by
  subst hbase
  refine ⟨fun hi => ?_, fun hi => exec_frmReg_of_ge hp hi⟩
  have hin := h.body_before_crc hp hi
  have hle := h.len_le
  exact ⟨exec_frmReg_of_lt hp ht hr hi (by omega), hin⟩

/-- Settles O58: the window starts at the body of each class and ends at `NREG`. -/
theorem frmRegReturnsTheBodyWord : Obligations.FrmRegReturnsTheBodyWord := by
  refine ⟨fun s i h ht hr hc => ?_, fun s i h ht hr hc => ?_, fun s i hno => ?_,
    fun s h hwrite hcalib hreset => ?_⟩
  · obtain ⟨hm, -⟩ := h.cfg_wf
    exact h.exec_frmReg_body ht hr (infoFields_of_read ht hr hc (by omega)) (by rw [hc]; rfl) i
  · exact h.exec_frmReg_body ht hr (infoFields_of_fixed ht hr hc) (by rw [hc]; rfl) i
  · exact exec_frmReg_of_ge (infoFields_of_no_data hno) (Nat.zero_le _)
  · obtain ⟨hm, -⟩ := h.cfg_wf
    have hp := infoFields_cases s (by omega)
    exact exec_frmReg_of_ge hp (h.nreg_le hwrite hcalib hreset hp)

/-! ## The registers of the request and of the status -/

/-- Settles O48: the write takes both bytes of `D`, the read returns both elements. -/
theorem requestRegisterWritesAndReads : Obligations.RequestRegisterWritesAndReads :=
  ⟨fun d => ⟨decodeCmd_write 0x12#8 d, decodeCmd_read 0x12#8 d⟩, fun _ _ _ => rfl, fun _ => rfl, fun _ => rfl⟩

/-- While the frame is open nothing is latched, and `OVR` is the only bit (R142). -/
theorem State.Inv.statWord_open {s : State} (h : s.Inv) (hd : s.done = false) :
    statWord s = if s.ovr then 0x0020#16 else 0x0000#16 := by
  obtain ⟨hres, hcrc, hcls, ham, hfm, hst⟩ := h.open_clear hd
  rw [statWord, hres, hcrc, hcls, ham, hfm, hst, hd]
  cases s.ovr <;> rfl

theorem retryOf_eq_true_iff (r : Result) :
    retryOf r = true ↔ r = .truncated ∨ r = .lengthMismatch ∨ r = .corruptFrame := by
  cases r <;> simp [retryOf]

/-! ### The fields of `FRM_STAT` (R25) -/

/-- The fields of one bit. -/
theorem statWord_flags (s : State) :
    (statWord s).getLsbD 0 = s.done ∧ (statWord s).getLsbD 4 = s.crcOk ∧ (statWord s).getLsbD 5 = s.ovr ∧
    (statWord s).getLsbD 6 = s.stale ∧ (statWord s).getLsbD 7 = false ∧ (statWord s).getLsbD 8 = s.amatch ∧
    (statWord s).getLsbD 9 = s.fmatch ∧ (statWord s).getLsbD 12 = retryOf s.result := by
  simp only [statWord, BitVec.getLsbD_append]
  simp

/-- `RESULT` stands above one field, `DONE`. -/
theorem statWord_result (s : State) : (statWord s).extractLsb' 1 3 = s.result.code := by
  rw [statWord, BitVec.extractLsb'_append_eq_of_le (by decide)]
  exact BitVec.extractLsb'_append_eq_right

/-- `CLS` stands above eight fields. -/
theorem statWord_cls (s : State) : (statWord s).extractLsb' 10 2 = s.cls.code := by
  rw [statWord]
  iterate 8 rw [BitVec.extractLsb'_append_eq_of_le (by decide)]
  exact BitVec.extractLsb'_append_eq_right

/-- The three top bits stand above ten fields. -/
theorem statWord_top (s : State) : (statWord s).extractLsb' 13 3 = 0#3 := by
  rw [statWord]
  iterate 10 rw [BitVec.extractLsb'_append_eq_of_le (by decide)]
  rfl

/-- Settles O49: the image is put together from the fields, each at its bits. -/
theorem frmStatReturnsEveryField : Obligations.FrmStatReturnsEveryField := by
  refine ⟨fun d => decodeCmd_read 0x13#8 d, ⟨rfl, rfl, rfl, rfl, rfl, rfl⟩, ⟨rfl, rfl, rfl⟩,
    fun s h hd => ?_, fun s => ⟨statWord s, rfl, ?_⟩⟩
  · rw [← h.statWord_open hd]
    rfl
  · obtain ⟨hdone, hcrc, hovr, hstale, hzero, ham, hfm, hretry⟩ := statWord_flags s
    rw [hretry, retryOf_eq_true_iff]
    exact ⟨hdone, statWord_result s, hcrc, hovr, hstale, hzero, ham, hfm, statWord_cls s, Iff.rfl, statWord_top s⟩

/-- Settles O50: `LEN` is at most `FRAME_MAX`, which is below both bounds. -/
theorem lenAndSysStatReturnTheirElements : Obligations.LenAndSysStatReturnTheirElements := by
  refine ⟨fun d => ⟨decodeCmd_read 0x14#8 d, decodeCmd_read 0x7F#8 d⟩, fun _ => rfl, fun s => ?_,
    fun s h => ⟨?_, ?_⟩, by decide⟩
  · obtain ⟨-, -, -, hsys⟩ := illIsStickyAndInert
    exact hsys s
  · obtain ⟨-, -, -, -, hmax⟩ := h.cfg_wf
    exact Nat.mod_eq_of_lt (Nat.lt_of_le_of_lt h.len_le hmax)
  · exact Nat.lt_of_le_of_lt h.len_le Nat.lt_log2_self

/-! ## The header and the exception code (R147, R149) -/

/-- Settles O55: the two bytes where the gate is open, 0 where it is shut. -/
theorem frmHdrReturnsTheHeader : Obligations.FrmHdrReturnsTheHeader := by
  refine ⟨fun d => decodeCmd_read 0x15#8 d, fun s hm => ?_⟩
  cases ht : trusted s with
  | true => exact exec_frmHdr_of_trusted ht hm
  | false => exact exec_frmHdr_of_not_trusted ht

/-- The class of a code, code by code (R78). -/
theorem exClass_eq (e : Byte) : exClass e =
    if e = 1#8 then 1#3 else if e = 2#8 then 2#3 else if e = 3#8 then 3#3 else if e = 4#8 then 4#3 else 7#3 := by
  revert e
  decide

/-- Settles O57: the byte after the header and its class, where the frame is an error reply. -/
theorem frmExcReturnsCodeAndClass : Obligations.FrmExcReturnsCodeAndClass := by
  refine ⟨fun d => decodeCmd_read 0x17#8 d, fun s hm ht hr e he => ?_, fun s h => exec_frmExc_of_no_error h⟩
  subst he
  rw [exec_frmExc_of_protocolError ht hr hm, excWord, exClass_eq]
  rfl

end Machine

end Sys2Proof

/-! SUPPORT. The statements of 60_exceptions.md: every step completes (R190, R225), and a step without a command
holds the state (R205). -/

namespace Sys2Proof

namespace Machine

/-- A step takes the oldest bus cycle off the port, whatever that cycle asks for. -/
theorem step_port {s t : State} (hs : step s = .next t) : t.port = s.port.tail := by
  rcases step_cases hs with ⟨hp, rfl⟩ | ⟨c, rest, hp, ⟨-, rfl⟩ | ⟨-, -, he⟩ | ⟨-, -, rfl⟩⟩
  · simp [hp]
  · simp [hp]
  · obtain ⟨-, hport, -⟩ := exec_keeps_parameters he
    simp [hport, hp]
  · simp [hp]

/-- From a state of the invariant a step neither faults nor refuses: only a command could, and it runs in a
state of the invariant too (R190). -/
theorem State.Inv.step_completes {s : State} (h : s.Inv) : ∃ t, step s = .next t := by
  cases hp : s.port with
  | nil => exact ⟨_, step_of_port_nil hp⟩
  | cons c rest =>
    cases hr : c.rst with
    | true => exact ⟨_, step_of_rst hp hr⟩
    | false =>
      cases hsel : c.sel with
      | true =>
        rw [step_of_sel hp hr hsel]
        exact (h.setPort rest).exec_completes _
      | false => exact ⟨_, step_of_not_sel hp hr hsel⟩

/-- Settles O8: a step from the invariant has a next state, which is in the invariant and past one bus cycle. -/
theorem everyStepCompletes : Obligations.EveryStepCompletes := by
  intro s h
  obtain ⟨t, hs⟩ := h.step_completes
  exact ⟨t, hs, h.of_step hs, step_port hs⟩

/-- Settles O2: both steps are idle cycles, which change the outputs only. -/
theorem stepWithoutCommandHoldsState : Obligations.StepWithoutCommandHoldsState :=
  ⟨fun _ => step_of_port_nil, fun _ _ _ => step_of_not_sel⟩

end Machine

end Sys2Proof

/-! SUPPORT. The statement of 70_reset_and_hazards.md: a cycle with `rst` (R210). -/

namespace Sys2Proof

namespace Machine

/-- What a reset writes: every element of R31's table and the outputs; the parameters, FB and the port stay. -/
theorem State.applyReset_eq (s : State) : s.applyReset =
    { s with
      crc := 0xFFFF#16, rxcrc := 0xFFFF#16, len := 0, done := false, ovr := false, stale := false,
      result := .none, crcOk := false, cls := .raw, amatch := false, fmatch := false,
      reqAddr := 0#8, reqFc := 0#8, ill := false, ready := false, rdata := none } := rfl

/-- Settles O3: `rst` is looked at before `sel`, so the step is the reset alone, whatever command the cycle
offers. -/
theorem resetCycleLoadsResetValues : Obligations.ResetCycleLoadsResetValues := by
  intro s c rest hp hr
  rw [step_of_rst hp hr, State.applyReset_eq]

end Machine

end Sys2Proof
